-- ==== Sys2Proof/Word.lean ====
section
/-! DEFINITION. The words of the block (00_scope.md R6, R8): bytes, 16-bit words, the instruction's
field widths and the register number. No value of the block is signed (R8). -/

namespace Sys2Proof

/-- An 8-bit value: a general register, a timer, a byte of memory (R6 `REG_W`, `TIMER_W`; R25). -/
abbrev Byte := BitVec 8

/-- A 16-bit value: an instruction word, I, PC, a stack slot (R6 `INSN_W`, `I_W`, `PC_W`, `STACK_W`). -/
abbrev Word := BitVec 16

/-- The value of an Address field `nnn` (30_encoding.md R48). -/
abbrev Addr12 := BitVec 12

/-- The value of a Nibble field `n` (30_encoding.md R48). -/
abbrev Nibble := BitVec 4

/-- The number of a general register, "indexed 0–15" (10_state.md R16). -/
abbrev RegIdx := Fin 16

end Sys2Proof
end

