-- ==== Sys2Proof/Syntax.lean ====
section
/-! DEFINITION. The instruction set as syntax: one constructor per row of the Instruction Catalog
(30_encoding.md R53), with the argument values in the order of R50. The field types are the ranges of
R48, so a register number above 15 or an address above 0xFFF cannot be written. -/

namespace Sys2Proof

/-- The 34 rows of R53. The comment on each is its pattern. -/
inductive Instr where
  | clear                                          -- 00E0
  | ret                                            -- 00EE  return
  | jump (nnn : Addr12)                            -- 1nnn
  | call (nnn : Addr12)                            -- 2nnn
  | skipEqual (x : RegIdx) (kk : Byte)             -- 3xkk
  | skipNotEqual (x : RegIdx) (kk : Byte)          -- 4xkk
  | skipEqualRegister (x y : RegIdx)               -- 5xy0
  | loadByteToVx (x : RegIdx) (kk : Byte)          -- 6xkk
  | addByteToVx (x : RegIdx) (kk : Byte)           -- 7xkk
  | setVxToVy (x y : RegIdx)                       -- 8xy0
  | orVxVy (x y : RegIdx)                          -- 8xy1
  | andVxVy (x y : RegIdx)                         -- 8xy2
  | xorVxVy (x y : RegIdx)                         -- 8xy3
  | addVxVy (x y : RegIdx)                         -- 8xy4
  | subVxVy (x y : RegIdx)                         -- 8xy5
  | shrVxVy (x y : RegIdx)                         -- 8xy6
  | subnVxVy (x y : RegIdx)                        -- 8xy7
  | shlVxVy (x y : RegIdx)                         -- 8xyE
  | skipNotEqualRegister (x y : RegIdx)            -- 9xy0
  | loadAddress (nnn : Addr12)                     -- Annn
  | jumpOffset (nnn : Addr12)                      -- Bnnn
  | random (x : RegIdx) (kk : Byte)                -- Cxkk
  | draw (x y : RegIdx) (n : Nibble)               -- Dxyn
  | skipKeyPressed (x : RegIdx)                    -- Ex9E
  | skipKeyNotPressed (x : RegIdx)                 -- ExA1
  | readDelayTimer (x : RegIdx)                    -- Fx07
  | waitKeyPress (x : RegIdx)                      -- Fx0A
  | setDelayTimer (x : RegIdx)                     -- Fx15
  | setSoundTimer (x : RegIdx)                     -- Fx18
  | addI (x : RegIdx)                              -- Fx1E
  | loadSprite (x : RegIdx)                        -- Fx29
  | loadBcd (x : RegIdx)                           -- Fx33
  | storeMemory (x : RegIdx)                       -- Fx55
  | readMemory (x : RegIdx)                        -- Fx65
  deriving DecidableEq, Repr

/-- The semantic kind of an argument (R48). -/
inductive ArgKind where
  | register
  | address
  | byte
  | nibble
  deriving DecidableEq, Repr

/-- The six formats of R50. -/
inductive Format where
  | none
  | addr
  | xkk
  | xy
  | xyn
  | x
  deriving DecidableEq, Repr

/-- The kinds of a format's arguments, in order (R50). -/
def Format.kinds : Format → List ArgKind
  | .none => []
  | .addr => [.address]
  | .xkk => [.register, .byte]
  | .xy => [.register, .register]
  | .xyn => [.register, .register, .nibble]
  | .x => [.register]

/-- The format column of R53. -/
def Instr.format : Instr → Format
  | .clear | .ret => .none
  | .jump _ | .call _ | .loadAddress _ | .jumpOffset _ => .addr
  | .skipEqual _ _ | .skipNotEqual _ _ | .loadByteToVx _ _ | .addByteToVx _ _ | .random _ _ => .xkk
  | .skipEqualRegister _ _ | .skipNotEqualRegister _ _ | .setVxToVy _ _ | .orVxVy _ _ | .andVxVy _ _
  | .xorVxVy _ _ | .addVxVy _ _ | .subVxVy _ _ | .shrVxVy _ _ | .subnVxVy _ _ | .shlVxVy _ _ => .xy
  | .draw _ _ _ => .xyn
  | .skipKeyPressed _ | .skipKeyNotPressed _ | .readDelayTimer _ | .waitKeyPress _ | .setDelayTimer _
  | .setSoundTimer _ | .addI _ | .loadSprite _ | .loadBcd _ | .storeMemory _ | .readMemory _ => .x

/-- The decoded instruction's "ordered list of extracted integer argument values" (R58). -/
def Instr.args : Instr → List Nat
  | .clear | .ret => []
  | .jump nnn | .call nnn | .loadAddress nnn | .jumpOffset nnn => [nnn.toNat]
  | .skipEqual x kk | .skipNotEqual x kk | .loadByteToVx x kk | .addByteToVx x kk | .random x kk =>
    [x.val, kk.toNat]
  | .skipEqualRegister x y | .skipNotEqualRegister x y | .setVxToVy x y | .orVxVy x y | .andVxVy x y
  | .xorVxVy x y | .addVxVy x y | .subVxVy x y | .shrVxVy x y | .subnVxVy x y | .shlVxVy x y =>
    [x.val, y.val]
  | .draw x y n => [x.val, y.val, n.toNat]
  | .skipKeyPressed x | .skipKeyNotPressed x | .readDelayTimer x | .waitKeyPress x | .setDelayTimer x
  | .setSoundTimer x | .addI x | .loadSprite x | .loadBcd x | .storeMemory x | .readMemory x => [x.val]

/-- The descriptor name of the instruction's row (R53, R60: the name is the mnemonic). -/
def Instr.name : Instr → String
  | .clear => "clear"
  | .ret => "return"
  | .jump _ => "jump"
  | .call _ => "call"
  | .skipEqual _ _ => "skip_equal"
  | .skipNotEqual _ _ => "skip_not_equal"
  | .skipEqualRegister _ _ => "skip_equal_register"
  | .loadByteToVx _ _ => "load_byte_to_vx"
  | .addByteToVx _ _ => "add_byte_to_vx"
  | .setVxToVy _ _ => "set_vx_to_vy"
  | .orVxVy _ _ => "or_vx_vy"
  | .andVxVy _ _ => "and_vx_vy"
  | .xorVxVy _ _ => "xor_vx_vy"
  | .addVxVy _ _ => "add_vx_vy"
  | .subVxVy _ _ => "sub_vx_vy"
  | .shrVxVy _ _ => "shr_vx_vy"
  | .subnVxVy _ _ => "subn_vx_vy"
  | .shlVxVy _ _ => "shl_vx_vy"
  | .skipNotEqualRegister _ _ => "skip_not_equal_register"
  | .loadAddress _ => "load_address"
  | .jumpOffset _ => "jump_offset"
  | .random _ _ => "random"
  | .draw _ _ _ => "draw"
  | .skipKeyPressed _ => "skip_key_pressed"
  | .skipKeyNotPressed _ => "skip_key_not_pressed"
  | .readDelayTimer _ => "read_delay_timer"
  | .waitKeyPress _ => "wait_key_press"
  | .setDelayTimer _ => "set_delay_timer"
  | .setSoundTimer _ => "set_sound_timer"
  | .addI _ => "add_i"
  | .loadSprite _ => "load_sprite"
  | .loadBcd _ => "load_bcd"
  | .storeMemory _ => "store_memory"
  | .readMemory _ => "read_memory"

end Sys2Proof
end

