-- ==== Sys2Proof/WellFormed.lean ====
section
/-! DEFINITION. When a list of argument values fits a format (30_encoding.md R48 ranges, R49 kinds, R50
argument lists). The types of `Instr` already carry the ranges, so every `Instr` is well-formed
(Laws/PerInstr.lean proves it per constructor); the check refuses raw values that no word can carry. -/

namespace Sys2Proof

/-- One more than the largest value of an argument kind (the range column of R48). -/
def ArgKind.limit : ArgKind → Nat
  | .register => 16
  | .address => 4096
  | .byte => 256
  | .nibble => 16

/-- The values are as many as the kinds, and each is in its kind's range. -/
def argsFit : List ArgKind → List Nat → Bool
  | [], [] => true
  | k :: ks, v :: vs => decide (v < k.limit) && argsFit ks vs
  | _, _ => false

/-- The instruction's argument values fit its format. -/
abbrev Instr.WellFormed (i : Instr) : Prop := argsFit i.format.kinds i.args = true

end Sys2Proof
end

