-- ==== Sys2Proof/Decode.lean ====
section
/-! DEFINITION. The Instruction Catalog, the decoder and the encoder (30_encoding.md R45 to R58). The
catalog's rows carry the opcode and mask columns of R53; the encoder is written from its pattern column,
so that the two check each other. UNVERIFIED (unsafe, log 11): the spec itself marks the bit patterns as
general knowledge (D1, D2). -/

namespace Sys2Proof

/-! ## Argument descriptors (R48) -/

/-- An argument descriptor `{bitmask, right-shift amount, semantic kind}` (R48). -/
structure ArgSpec where
  bitmask : Word
  shift : Nat
  kind : ArgKind
  deriving DecidableEq, Repr

/-- "its value is extracted as `(w AND bitmask) >> shift`" (R48, R51). -/
def ArgSpec.extract (a : ArgSpec) (w : Word) : Nat := ((w &&& a.bitmask) >>> a.shift).toNat

def argX : ArgSpec := ⟨0x0F00#16, 8, .register⟩
def argY : ArgSpec := ⟨0x00F0#16, 4, .register⟩
def argNnn : ArgSpec := ⟨0x0FFF#16, 0, .address⟩
def argKk : ArgSpec := ⟨0x00FF#16, 0, .byte⟩
def argN : ArgSpec := ⟨0x000F#16, 0, .nibble⟩

/-- The arguments of a format, in order (R50). -/
def Format.argSpecs : Format → List ArgSpec
  | .none => []
  | .addr => [argNnn]
  | .xkk => [argX, argKk]
  | .xy => [argX, argY]
  | .xyn => [argX, argY, argN]
  | .x => [argX]

/-- The fixed bits of a format (the mask column of R50 and R53). -/
def Format.mask : Format → Word
  | .none => 0xFFFF#16
  | .addr => 0xF000#16
  | .xkk => 0xF000#16
  | .xy => 0xF00F#16
  | .xyn => 0xF000#16
  | .x => 0xF0FF#16

def fieldX (w : Word) : RegIdx := Fin.ofNat 16 (argX.extract w)
def fieldY (w : Word) : RegIdx := Fin.ofNat 16 (argY.extract w)
def fieldNnn (w : Word) : Addr12 := BitVec.ofNat 12 (argNnn.extract w)
def fieldKk (w : Word) : Byte := BitVec.ofNat 8 (argKk.extract w)
def fieldN (w : Word) : Nibble := BitVec.ofNat 4 (argN.extract w)

/-! ## The catalog (R47, R53) -/

/-- What a row builds from its argument values: the constructor, at the row's format. -/
inductive RowForm where
  | none (i : Instr)
  | addr (f : Addr12 → Instr)
  | xkk (f : RegIdx → Byte → Instr)
  | xy (f : RegIdx → RegIdx → Instr)
  | xyn (f : RegIdx → RegIdx → Nibble → Instr)
  | x (f : RegIdx → Instr)

def RowForm.format : RowForm → Format
  | .none _ => .none
  | .addr _ => .addr
  | .xkk _ => .xkk
  | .xy _ => .xy
  | .xyn _ => .xyn
  | .x _ => .x

/-- The instruction a row reads from a word: each argument extracted afresh (R51, R58). -/
def RowForm.build : RowForm → Word → Instr
  | .none i, _ => i
  | .addr f, w => f (fieldNnn w)
  | .xkk f, w => f (fieldX w) (fieldKk w)
  | .xy f, w => f (fieldX w) (fieldY w)
  | .xyn f, w => f (fieldX w) (fieldY w) (fieldN w)
  | .x f, w => f (fieldX w)

/-- An instruction descriptor `{name, opcode pattern, mask, arguments}` (R47); mask and arguments come
from the format. -/
structure Descriptor where
  name : String
  opcode : Word
  form : RowForm

def Descriptor.mask (d : Descriptor) : Word := d.form.format.mask

/-- `(w AND d.mask) = d.opcode` (R51). -/
def Descriptor.covers (d : Descriptor) (w : Word) : Bool := w &&& d.mask == d.opcode

/-- Rows 1 to 9 of R53: clear, control flow, immediates. -/
def catalogLow : List Descriptor :=
  [ ⟨"clear", 0x00E0#16, .none .clear⟩,
    ⟨"return", 0x00EE#16, .none .ret⟩,
    ⟨"jump", 0x1000#16, .addr .jump⟩,
    ⟨"call", 0x2000#16, .addr .call⟩,
    ⟨"skip_equal", 0x3000#16, .xkk .skipEqual⟩,
    ⟨"skip_not_equal", 0x4000#16, .xkk .skipNotEqual⟩,
    ⟨"skip_equal_register", 0x5000#16, .xy .skipEqualRegister⟩,
    ⟨"load_byte_to_vx", 0x6000#16, .xkk .loadByteToVx⟩,
    ⟨"add_byte_to_vx", 0x7000#16, .xkk .addByteToVx⟩ ]

/-- Rows 10 to 18 of R53: the register arithmetic and logic group. -/
def catalogAlu : List Descriptor :=
  [ ⟨"set_vx_to_vy", 0x8000#16, .xy .setVxToVy⟩,
    ⟨"or_vx_vy", 0x8001#16, .xy .orVxVy⟩,
    ⟨"and_vx_vy", 0x8002#16, .xy .andVxVy⟩,
    ⟨"xor_vx_vy", 0x8003#16, .xy .xorVxVy⟩,
    ⟨"add_vx_vy", 0x8004#16, .xy .addVxVy⟩,
    ⟨"sub_vx_vy", 0x8005#16, .xy .subVxVy⟩,
    ⟨"shr_vx_vy", 0x8006#16, .xy .shrVxVy⟩,
    ⟨"subn_vx_vy", 0x8007#16, .xy .subnVxVy⟩,
    ⟨"shl_vx_vy", 0x800E#16, .xy .shlVxVy⟩ ]

/-- Rows 19 to 25 of R53. -/
def catalogHigh : List Descriptor :=
  [ ⟨"skip_not_equal_register", 0x9000#16, .xy .skipNotEqualRegister⟩,
    ⟨"load_address", 0xA000#16, .addr .loadAddress⟩,
    ⟨"jump_offset", 0xB000#16, .addr .jumpOffset⟩,
    ⟨"random", 0xC000#16, .xkk .random⟩,
    ⟨"draw", 0xD000#16, .xyn .draw⟩,
    ⟨"skip_key_pressed", 0xE09E#16, .x .skipKeyPressed⟩,
    ⟨"skip_key_not_pressed", 0xE0A1#16, .x .skipKeyNotPressed⟩ ]

/-- Rows 26 to 34 of R53: the `Fx` group. -/
def catalogF : List Descriptor :=
  [ ⟨"read_delay_timer", 0xF007#16, .x .readDelayTimer⟩,
    ⟨"wait_key_press", 0xF00A#16, .x .waitKeyPress⟩,
    ⟨"set_delay_timer", 0xF015#16, .x .setDelayTimer⟩,
    ⟨"set_sound_timer", 0xF018#16, .x .setSoundTimer⟩,
    ⟨"add_i", 0xF01E#16, .x .addI⟩,
    ⟨"load_sprite", 0xF029#16, .x .loadSprite⟩,
    ⟨"load_bcd", 0xF033#16, .x .loadBcd⟩,
    ⟨"store_memory", 0xF055#16, .x .storeMemory⟩,
    ⟨"read_memory", 0xF065#16, .x .readMemory⟩ ]

/-- "A static, immutable, ordered collection of instruction descriptors" (R47): the 34 rows of R53. -/
def catalog : List Descriptor := catalogLow ++ catalogAlu ++ catalogHigh ++ catalogF

/-! ## The decoder (R51, R55) -/

/-- Why bytes are no instruction. `unknownInstruction` is the decoder's error `UnknownInstruction(raw)` of
R51; `truncated` (the model's own, log 20) is fewer than the two bytes of R45. -/
inductive DecodeError where
  | unknownInstruction (w : Word)
  | truncated
  deriving DecidableEq, Repr

/-- `decode(w)` of R51: the descriptor that covers the word, with its arguments extracted. -/
def decode (w : Word) : Except DecodeError Instr :=
  match catalog.find? (fun d => d.covers w) with
  | some d => .ok (d.form.build w)
  | none => .error (.unknownInstruction w)

/-- Two bytes as a word, most significant byte first (R35, R45). -/
def joinBytes (hi lo : Byte) : Word := hi ++ lo

/-- The first byte of a word in memory, bits 15 to 8 (R35). -/
def highByte (w : Word) : Byte := w.extractLsb' 8 8

/-- The second byte of a word in memory, bits 7 to 0 (R35). -/
def lowByte (w : Word) : Byte := w.extractLsb' 0 8

/-- Decoding from a byte stream: two bytes, big-endian, and the rest of the bytes (R45). -/
def decodeBytes : List Byte → Except DecodeError (Instr × List Byte)
  | hi :: lo :: rest =>
    match decode (joinBytes hi lo) with
    | .ok i => .ok (i, rest)
    | .error e => .error e
  | _ => .error .truncated

/-! ## The encoder (the pattern column of R53) -/

/-- A register number as the nibble of its field (R48). -/
def regNibble (r : RegIdx) : Nibble := BitVec.ofFin (w := 4) r

/-- Pattern `onnn`. -/
def wordAddr (o : Nibble) (nnn : Addr12) : Word := o ++ nnn

/-- Pattern `oxkk`, also `oxff` with the fixed low byte. -/
def wordXkk (o : Nibble) (x : RegIdx) (kk : Byte) : Word := o ++ regNibble x ++ kk

/-- Pattern `oxyn`, also `oxyf` with the fixed low nibble. -/
def wordXyn (o : Nibble) (x y : RegIdx) (n : Nibble) : Word := o ++ regNibble x ++ regNibble y ++ n

/-- The word of an instruction: its row's pattern with the arguments placed (R58). -/
def encode : Instr → Word
  | .clear => 0x00E0#16
  | .ret => 0x00EE#16
  | .jump nnn => wordAddr 0x1#4 nnn
  | .call nnn => wordAddr 0x2#4 nnn
  | .skipEqual x kk => wordXkk 0x3#4 x kk
  | .skipNotEqual x kk => wordXkk 0x4#4 x kk
  | .skipEqualRegister x y => wordXyn 0x5#4 x y 0x0#4
  | .loadByteToVx x kk => wordXkk 0x6#4 x kk
  | .addByteToVx x kk => wordXkk 0x7#4 x kk
  | .setVxToVy x y => wordXyn 0x8#4 x y 0x0#4
  | .orVxVy x y => wordXyn 0x8#4 x y 0x1#4
  | .andVxVy x y => wordXyn 0x8#4 x y 0x2#4
  | .xorVxVy x y => wordXyn 0x8#4 x y 0x3#4
  | .addVxVy x y => wordXyn 0x8#4 x y 0x4#4
  | .subVxVy x y => wordXyn 0x8#4 x y 0x5#4
  | .shrVxVy x y => wordXyn 0x8#4 x y 0x6#4
  | .subnVxVy x y => wordXyn 0x8#4 x y 0x7#4
  | .shlVxVy x y => wordXyn 0x8#4 x y 0xE#4
  | .skipNotEqualRegister x y => wordXyn 0x9#4 x y 0x0#4
  | .loadAddress nnn => wordAddr 0xA#4 nnn
  | .jumpOffset nnn => wordAddr 0xB#4 nnn
  | .random x kk => wordXkk 0xC#4 x kk
  | .draw x y n => wordXyn 0xD#4 x y n
  | .skipKeyPressed x => wordXkk 0xE#4 x 0x9E#8
  | .skipKeyNotPressed x => wordXkk 0xE#4 x 0xA1#8
  | .readDelayTimer x => wordXkk 0xF#4 x 0x07#8
  | .waitKeyPress x => wordXkk 0xF#4 x 0x0A#8
  | .setDelayTimer x => wordXkk 0xF#4 x 0x15#8
  | .setSoundTimer x => wordXkk 0xF#4 x 0x18#8
  | .addI x => wordXkk 0xF#4 x 0x1E#8
  | .loadSprite x => wordXkk 0xF#4 x 0x29#8
  | .loadBcd x => wordXkk 0xF#4 x 0x33#8
  | .storeMemory x => wordXkk 0xF#4 x 0x55#8
  | .readMemory x => wordXkk 0xF#4 x 0x65#8

/-- The two bytes of an instruction as memory holds them (R35). -/
def encodeBytes (i : Instr) : List Byte := [highByte (encode i), lowByte (encode i)]

/-! ## The host's view of the table -/

/-- The word the host means by `nbits` and `w`: bits 15 to 0, every bit above `nbits` zero. An
instruction has one word (R45), so bits above 15 name nothing and are dropped (log 20). -/
def tableWord (nbits w : Nat) : Word := BitVec.ofNat 16 (w % 2 ^ nbits)

/-- The instruction the decoder reads from a table word laid out as memory holds it. -/
def decodeTableWord (nbits w : Nat) : Option Instr :=
  match decodeBytes [highByte (tableWord nbits w), lowByte (tableWord nbits w)] with
  | .ok (i, _) => some i
  | .error _ => none

end Sys2Proof
end

