-- ==== Sys2Proof/Config.lean ====
section
/-! DEFINITION. What an implementation of the block fixes (00_scope.md R6, R7) and the one free value
of the spec, the random byte (R13). -/

namespace Sys2Proof

/-- `MEM_SIZE` (R6): bytes of memory, addresses 0x000 to 0xFFF. -/
def Config.memSize : Nat := 4096

/-- `PROG_START` (R6): the reset value of PC and the load address of a program. -/
def Config.progStart : Word := 0x200#16

/-- `GLYPH_BYTES` (R6): bytes per built-in font glyph. -/
def Config.glyphBytes : Nat := 5

/-- The two settings of `SHIFT_SOURCE` (R7): the register that the shifts read. -/
inductive ShiftSource where
  | vx
  | vy
  deriving DecidableEq, Repr

/-- The parameters the source leaves open and "the model takes as arguments" (R7). `aluSetsVf` is
`ALU_SETS_VF` (D5), `shiftSource` is `SHIFT_SOURCE` (D7). DESIGN CHOICE (safe, log 1): they ride in the
state, so every meaning is written, and every statement holds, for each setting. -/
structure Params where
  aluSetsVf : Bool
  shiftSource : ShiftSource
  deriving DecidableEq, Repr

/-- FREE VALUE (safe, log 2): the byte that draw number `k` of `RAND8()` gives. "It is an arbitrary 8-bit
value chosen fresh at each use, and no rule constrains it" (R13, R95, D22). It has no body on purpose. -/
opaque Config.rand8 : Nat → Byte

end Sys2Proof
end

