-- ==== Sys2Proof/Machine/Params.lean ====
section
/-! DEFINITION. The parameter setting a machine starts with (00_scope.md R7). -/

namespace Sys2Proof.Machine

/-- R7's defaults: "The default is `true`" for `ALU_SETS_VF`, "The default is `VX`" for `SHIFT_SOURCE`
(log 1). A machine with another setting is the same machine with another `params`. -/
def defaultParams : Params := ⟨true, .vx⟩

end Sys2Proof.Machine
end

