-- ==== Sys2Proof/Machine/State.lean ====
section
/-! DEFINITION. The state of the block as plain data (10_state.md R15 to R29), the reasons a step can
stop, and the state after reset. -/

namespace Sys2Proof.Machine

/-- The five kinds of error (60_exceptions.md R120). -/
inductive ErrorKind where
  | unknownInstruction
  | stackOverflow
  | stackUnderflow
  | indexOutOfBounds
  | notImplemented
  deriving DecidableEq, Repr

/-- `fault(kind, word, pc)` (10_state.md R27): `word` is the instruction word, or `none` when the error
came from the fetch itself; `pc` is the PC of the instruction that failed. -/
structure FaultRecord where
  kind : ErrorKind
  word : Option Word
  pc : Word
  deriving DecidableEq, Repr

/-- Memory (20_memory.md R31): the listed bytes, by rising address, none equal to `unlistedByte`. -/
abbrev Memory := List Host.Cell

/-- The framebuffer (10_state.md R26): 32 rows (`py`) of 64 pixels (`px`), each 0 or 1. -/
abbrev Framebuffer := Vector (Vector Bool 64) 32

/-- The state tuple of R15, field by field, and two fields of the model's own. -/
structure State where
  /-- V[0] to V[15] (R16). -/
  v : Vector Byte 16
  /-- The index register I (R20). -/
  iReg : Word
  /-- The program counter (R21). -/
  pc : Word
  /-- The 16 return-address slots (R22). -/
  stack : Vector Word 16
  /-- The stack pointer as a depth, `SP + 1` in 0 to 16 (R23 allows it; log 6). -/
  depth : Fin 17
  /-- The delay timer (R24). -/
  dt : Byte
  /-- The sound timer (R24). -/
  st : Byte
  /-- M[0] to M[4095] (R25). -/
  mem : Memory
  /-- The framebuffer (R26). -/
  fb : Framebuffer
  /-- The fault latch (R27). -/
  fault : Option FaultRecord
  /-- The model's own: the parameters of R7, which nothing changes (log 1). -/
  params : Params
  /-- The model's own: how many `RAND8()` draws have been taken (R13; log 2). -/
  draws : Nat
  deriving DecidableEq, Repr

/-- Why the machine stops. -/
inductive Fault where
  /-- Raised by `step` alone, when the fault latch already holds `r`: the step is refused, changes nothing
  and "returns the latched fault again" (40_step.md R63). Safe: the spec has the block make no progress
  until `reset()`, and no instruction runs. -/
  | latched (r : FaultRecord)
  deriving DecidableEq, Repr

/-- Why an instruction has no meaning. -/
inductive Refusal where
  /-- Raised by an arm of `exec` whose instruction is not modelled yet. No arm raises it: every row of the
  table has its meaning. Safe. -/
  | notModelled (mnemonic : String)
  deriving DecidableEq, Repr

/-- A framebuffer with every pixel 0. -/
abbrev blankScreen : Framebuffer := Vector.replicate 32 (Vector.replicate 64 false)

/-- The state after reset (10_state.md R29, 70_reset_and_hazards.md R136). `draws` is the model's own:
DESIGN CHOICE 0 (log 2). -/
def State.reset : State where
  v := Vector.replicate 16 0x00#8
  iReg := 0x0000#16
  pc := Config.progStart
  stack := Vector.replicate 16 0x0000#16
  depth := 0
  dt := 0x00#8
  st := 0x00#8
  mem := []
  fb := blankScreen
  fault := none
  params := defaultParams
  draws := 0

end Sys2Proof.Machine
end

