-- ==== Sys2Proof/Machine/Ops.lean ====
section
/-! DEFINITION. The named operations over registers, stack, memory and framebuffer, the end of a step
(PC update, commit) and the one operation that takes an error (40_step.md, 60_exceptions.md). -/

namespace Sys2Proof.Machine

/-! ## Field writes -/

def State.setPc (s : State) (a : Word) : State := { s with pc := a }
def State.setI (s : State) (a : Word) : State := { s with iReg := a }
def State.setRegs (s : State) (v : Vector Byte 16) : State := { s with v := v }
def State.setStack (s : State) (k : Vector Word 16) (d : Fin 17) : State := { s with stack := k, depth := d }
def State.setDt (s : State) (b : Byte) : State := { s with dt := b }
def State.setSt (s : State) (b : Byte) : State := { s with st := b }
def State.setMem (s : State) (m : Memory) : State := { s with mem := m }
def State.setFb (s : State) (f : Framebuffer) : State := { s with fb := f }
def State.setFault (s : State) (f : Option FaultRecord) : State := { s with fault := f }
def State.setDraws (s : State) (k : Nat) : State := { s with draws := k }

/-! ## General registers (R9, R16) -/

/-- `V[r]`. -/
def State.reg (s : State) (r : RegIdx) : Byte := s.v[r]

/-- `V[r] <- b`. No register is hardwired (R16); VF is an ordinary one (R17). -/
def State.setReg (s : State) (r : RegIdx) (b : Byte) : State := s.setRegs (s.v.set r b)

/-! ## The stack (R22, R23) -/

/-- The stack pointer as the spec numbers it: -1 is empty, 15 is full (R23). -/
def State.sp (s : State) : Int := (s.depth.val : Int) - 1

/-- `SP <- SP + 1; S[SP] <- a`, or nothing when `SP >= 15` (R75). -/
def State.push (s : State) (a : Word) : Option State :=
  if h : s.depth.val < 16 then
    some (s.setStack (s.stack.set s.depth.val a) ⟨s.depth.val + 1, by omega⟩)
  else none

/-- `S[SP]` and the state with `SP <- SP - 1`, or nothing when `SP = -1` (R74). The slot keeps its value
(R23). -/
def State.pop (s : State) : Option (Word × State) :=
  if h : 0 < s.depth.val then
    some (s.stack[s.depth.val - 1], s.setStack s.stack ⟨s.depth.val - 1, by omega⟩)
  else none

/-! ## Memory (R10, R31, R32) -/

/-- What an address the list does not hold reads as: memory is 0x00 after reset (R29; log 9). -/
def unlistedByte : Byte := 0x00#8

/-- `M[a]`. -/
def Memory.read : Memory → Nat → Byte
  | [], _ => unlistedByte
  | (c, b) :: m, a => if a = c then b else Memory.read m a

/-- Puts a cell in front, unless it holds what an unlisted address reads as. -/
def Memory.cons (a : Nat) (b : Byte) (m : Memory) : Memory :=
  if b = unlistedByte then m else (a, b) :: m

/-- `M[a] <- b`, keeping the canonical form. -/
def Memory.write : Memory → Nat → Byte → Memory
  | [], a, b => Memory.cons a b []
  | (c, d) :: m, a, b =>
    if a < c then Memory.cons a b ((c, d) :: m)
    else if a = c then Memory.cons a b m
    else (c, d) :: Memory.write m a b

/-- The canonical form: addresses inside the block's memory and strictly rising, no listed byte equal to
`unlistedByte`. -/
abbrev Memory.wf (m : Memory) : Prop :=
  m.Pairwise (fun c d => c.1 < d.1) ∧ ∀ c ∈ m, c.1 < Config.memSize ∧ c.2 ≠ unlistedByte

/-- "An access of n bytes at address a is in bounds when `a + n - 1 <= 0xFFF`" (R32), and an access of no
bytes always is (R108: draw with n = 0). Nothing wraps. -/
def inBounds (a n : Nat) : Bool := decide (n = 0 ∨ a + n ≤ Config.memSize)

/-- `n` single-byte reads at `a`, `a + 1`, … (R37). -/
def Memory.readBytes (m : Memory) (a : Nat) : Nat → List Byte
  | 0 => []
  | n + 1 => Memory.read m a :: Memory.readBytes m (a + 1) n

/-- Single-byte writes at `a`, `a + 1`, … (R37). -/
def Memory.writeBytes (m : Memory) (a : Nat) : List Byte → Memory
  | [] => m
  | b :: bs => Memory.writeBytes (Memory.write m a b) (a + 1) bs

/-! ## Fetch (R35, R65) -/

/-- `MemRead(PC, 2)`, most significant byte first, or nothing when `PC + 1 > 0xFFF`. -/
def fetch (s : State) : Option Word :=
  if inBounds s.pc.toNat 2 then
    some (joinBytes (Memory.read s.mem s.pc.toNat) (Memory.read s.mem (s.pc.toNat + 1)))
  else none

/-! ## The framebuffer (R26) -/

/-- `FB[px, py]`. -/
def State.pixel (s : State) (px : Fin 64) (py : Fin 32) : Bool := s.fb[py][px]

/-- `FB[px, py] <- b`. -/
def Framebuffer.set (f : Framebuffer) (px : Fin 64) (py : Fin 32) (b : Bool) : Framebuffer :=
  Vector.set f py.val (Vector.set f[py] px.val b)

/-! ## The end of a step (R64, R68) -/

/-- `PC <- pc0 + 2`, for an instruction that does not write PC itself (R68). The sum is exact wherever a
step can execute, since the fetch bound leaves `pc0 <= 0xFFE` (log 5). -/
def State.advance (s : State) : State := s.setPc (s.pc + 2#16)

/-- `PC <- pc0 + 4` when the condition holds, `PC <- pc0 + 2` otherwise (R68). -/
def State.skipIf (s : State) (c : Bool) : State := s.setPc (if c then s.pc + 4#16 else s.pc + 2#16)

/-- The end of a step that committed. -/
def commit (s : State) : Host.Outcome State Fault Refusal := .next s

/-! ## Taking an error (R69, R122), and what stands in place of a return from it (R126) -/

/-- `raise E` with the fetched word: "the step commits nothing" and `FAULT <- fault(E, w or none, pc0)`.
Nothing else changes: there is no transfer of control, no saved address, no mode and no vector (R124). -/
def State.raise (s : State) (k : ErrorKind) (w : Option Word) : State :=
  s.setFault (some ⟨k, w, s.pc⟩)

/-- Instruction `i` raises `k`: the fetched word is the instruction's own word, since a row's mask covers
every bit that is not an argument (30_encoding.md R54; log 4). -/
def raiseIn (i : Instr) (k : ErrorKind) (s : State) : Host.Outcome State Fault Refusal :=
  .next (s.raise k (some (encode i)))

/-- The fetch raises IndexOutOfBounds, with no word (R65). -/
def raiseFetch (s : State) : Host.Outcome State Fault Refusal := .next (s.raise .indexOutOfBounds none)

/-- The decoder raises UnknownInstruction with the word (R66). -/
def raiseDecode (w : Word) (s : State) : Host.Outcome State Fault Refusal :=
  .next (s.raise .unknownInstruction (some w))

/-- A step while FAULT holds `r` is refused and returns the latched fault again (R63). -/
def refuseStep (r : FaultRecord) : Host.Outcome State Fault Refusal := .fault (.latched r)

/-- There is no return from an error (R126): only `reset()` clears the latch. It sets every piece of state of
R15 to its value of R29 (R136); the parameters are constants of the block and the count of draws belongs
to the RAND input, so both stay (log 16). -/
def State.hostReset (s : State) : State := { State.reset with params := s.params, draws := s.draws }

/-- The numeric code of an error kind (R120, D19). -/
def errorCode : ErrorKind → Nat
  | .unknownInstruction => 1
  | .stackOverflow => 2
  | .stackUnderflow => 3
  | .indexOutOfBounds => 4
  | .notImplemented => 5

end Sys2Proof.Machine
end

