-- ==== Sys2Proof/Machine/Operands.lean ====
section
/-! DEFINITION. The operand forms: jump targets, the addresses of a transfer through I, the registers of a
bulk transfer, the register a shift reads, and a pixel's coordinates. -/

namespace Sys2Proof.Machine

/-- `zext_16(nnn)` (30_encoding.md R49). -/
def targetOf (nnn : Addr12) : Word := nnn.setWidth 16

/-- `zext_16(nnn) + V[0]` (41_control_flow.md R77): at most 0x10FE, so the 16-bit sum is exact. -/
def offsetTarget (nnn : Addr12) (s : State) : Word := targetOf nnn + (s.reg 0).setWidth 16

/-- The address a transfer starts at: "The only addressing mode is I plus a constant offset" (R100). -/
def dataAddress (s : State) : Nat := s.iReg.toNat

/-- What every instruction that touches `n` bytes at I does: it "checks that its highest address is at most
0xFFF before it writes anything" (R100, R108); in bounds the step commits `t`, PC two on, otherwise
instruction `i` raises IndexOutOfBounds. -/
def checkedAccess (i : Instr) (n : Nat) (s t : State) : Host.Outcome State Fault Refusal :=
  if inBounds (dataAddress s) n then commit t.advance else raiseIn i .indexOutOfBounds s

/-- The registers V0 to Vx, inclusive (R102, R103). -/
def regsUpTo (x : RegIdx) : List RegIdx := (List.finRange 16).take (x.val + 1)

/-- The number of bytes a bulk transfer touches: `M[I .. I+x]` (R102, R103). -/
def bulkCount (x : RegIdx) : Nat := x.val + 1

/-- What `SHIFT_SOURCE` makes a shift read (R92, R94, D7). -/
def shiftOperand (x y : RegIdx) (s : State) : Byte :=
  match s.params.shiftSource with
  | .vx => s.reg x
  | .vy => s.reg y

/-- The three decimal digits of a byte: hundreds, tens, ones (R101). -/
def bcdDigits (b : Byte) : List Byte :=
  [BitVec.ofNat 8 (b.toNat / 100), BitVec.ofNat 8 (b.toNat / 10 % 10), BitVec.ofNat 8 (b.toNat % 10)]

/-- The column `(x0 + col) mod 64` (R108). -/
def columnOf (x0 : Byte) (col : Nat) : Fin 64 := Fin.ofNat 64 (x0.toNat + col)

/-- The row `(y0 + row) mod 32` (R108). -/
def lineOf (y0 : Byte) (row : Nat) : Fin 32 := Fin.ofNat 32 (y0.toNat + row)

/-- Sprite bit of a column: "bit 7 is column 0, the leftmost, and bit 0 is column 7" (R109). -/
def spriteBit (b : Byte) (col : Nat) : Bool := b.getLsbD (7 - col)

end Sys2Proof.Machine
end

