-- ==== Sys2Proof/Machine/Flags.lean ====
section
/-! DEFINITION. The flag values and the flag write (42_arithmetic_logic.md R82, R83, R90 to R94;
45_display.md R105, R108). UNVERIFIED (unsafe, log 12): the spec marks the five ALU flag values as general
knowledge (K5, D6, D8). -/

namespace Sys2Proof.Machine

/-- VF, the register that doubles as the flag output (10_state.md R17). -/
def regVF : RegIdx := 15

/-- A flag as the byte that VF receives. -/
def flagByte (f : Bool) : Byte := if f then 1#8 else 0#8

/-- The carry out of bit 7 of `a + b`: the exact sum is above 255 (R90). -/
def carryOf (a b : Byte) : Bool := decide (255 < a.toNat + b.toNat)

/-- NOT borrow of `a - b`: the minuend is at least the subtrahend (R91, R93, D6). -/
def notBorrowOf (a b : Byte) : Bool := decide (b.toNat ≤ a.toNat)

/-- The bit a right shift by one shifts out, bit 0 (R92). -/
def lowBitOf (a : Byte) : Bool := a.getLsbD 0

/-- The bit a left shift by one shifts out, bit 7 (R94). -/
def highBitOf (a : Byte) : Bool := a.getLsbD 7

/-- Writes a collision to VF (R108): always. -/
def State.setVF (s : State) (f : Bool) : State := s.setReg regVF (flagByte f)

/-- The flag write of the five ALU instructions: only when `ALU_SETS_VF` (R83). -/
def State.aluFlag (s : State) (f : Bool) : State := if s.params.aluSetsVf then s.setVF f else s

/-- Result first, then flag (R83): with x = 15 and `ALU_SETS_VF` the flag is what VF holds afterwards. -/
def State.aluResult (s : State) (x : RegIdx) (b : Byte) (f : Bool) : State := (s.setReg x b).aluFlag f

end Sys2Proof.Machine
end

