-- ==== Sys2Proof/Machine/Addressing.lean ====
section
/-! DEFINITION. The writers of the index register I (43_addressing.md R97 to R99). None touches memory. -/

namespace Sys2Proof.Machine

/-- `load_address nnn` (R97). -/
def execLoadAddress (nnn : Addr12) (s : State) : Host.Outcome State Fault Refusal :=
  commit (s.setI (targetOf nnn)).advance

/-- `add_i Vx` (R98): modulo 65536, no flag. -/
def execAddI (x : RegIdx) (s : State) : Host.Outcome State Fault Refusal :=
  commit (s.setI (s.iReg + (s.reg x).setWidth 16)).advance

/-- `load_sprite Vx` (R99): `I <- V[x] * 5`, unmasked. -/
def execLoadSprite (x : RegIdx) (s : State) : Host.Outcome State Fault Refusal :=
  commit (s.setI (BitVec.ofNat 16 ((s.reg x).toNat * Config.glyphBytes))).advance

end Sys2Proof.Machine
end

