-- ==== Sys2Proof/Machine/ArithmeticLogic.lean ====
section
/-! DEFINITION. Register load, arithmetic and logic (42_arithmetic_logic.md R82 to R95). Results are modulo
256 and nothing raises (R82); every source register is read before anything is written (R82, D30). -/

namespace Sys2Proof.Machine

/-- `load_byte_to_vx Vx, kk` (R84). -/
def execLoadByteToVx (x : RegIdx) (kk : Byte) (s : State) : Host.Outcome State Fault Refusal :=
  commit (s.setReg x kk).advance

/-- `add_byte_to_vx Vx, kk` (R85): no carry is written. -/
def execAddByteToVx (x : RegIdx) (kk : Byte) (s : State) : Host.Outcome State Fault Refusal :=
  commit (s.setReg x (s.reg x + kk)).advance

/-- `set_vx_to_vy Vx, Vy` (R86). -/
def execSetVxToVy (x y : RegIdx) (s : State) : Host.Outcome State Fault Refusal :=
  commit (s.setReg x (s.reg y)).advance

/-- `or_vx_vy Vx, Vy` (R87). -/
def execOrVxVy (x y : RegIdx) (s : State) : Host.Outcome State Fault Refusal :=
  commit (s.setReg x (s.reg x ||| s.reg y)).advance

/-- `and_vx_vy Vx, Vy` (R88). -/
def execAndVxVy (x y : RegIdx) (s : State) : Host.Outcome State Fault Refusal :=
  commit (s.setReg x (s.reg x &&& s.reg y)).advance

/-- `xor_vx_vy Vx, Vy` (R89). -/
def execXorVxVy (x y : RegIdx) (s : State) : Host.Outcome State Fault Refusal :=
  commit (s.setReg x (s.reg x ^^^ s.reg y)).advance

/-- `add_vx_vy Vx, Vy` (R90). -/
def execAddVxVy (x y : RegIdx) (s : State) : Host.Outcome State Fault Refusal :=
  commit (s.aluResult x (s.reg x + s.reg y) (carryOf (s.reg x) (s.reg y))).advance

/-- `sub_vx_vy Vx, Vy` (R91). -/
def execSubVxVy (x y : RegIdx) (s : State) : Host.Outcome State Fault Refusal :=
  commit (s.aluResult x (s.reg x - s.reg y) (notBorrowOf (s.reg x) (s.reg y))).advance

/-- `shr_vx_vy Vx, Vy` (R92). -/
def execShrVxVy (x y : RegIdx) (s : State) : Host.Outcome State Fault Refusal :=
  commit (s.aluResult x (shiftOperand x y s >>> 1) (lowBitOf (shiftOperand x y s))).advance

/-- `subn_vx_vy Vx, Vy` (R93). -/
def execSubnVxVy (x y : RegIdx) (s : State) : Host.Outcome State Fault Refusal :=
  commit (s.aluResult x (s.reg y - s.reg x) (notBorrowOf (s.reg y) (s.reg x))).advance

/-- `shl_vx_vy Vx, Vy` (R94). -/
def execShlVxVy (x y : RegIdx) (s : State) : Host.Outcome State Fault Refusal :=
  commit (s.aluResult x (shiftOperand x y s <<< 1) (highBitOf (shiftOperand x y s))).advance

/-- `random Vx, kk` (R95): one fresh draw of `RAND8()`, a free value (log 2). -/
def execRandom (x : RegIdx) (kk : Byte) (s : State) : Host.Outcome State Fault Refusal :=
  commit ((s.setDraws (s.draws + 1)).setReg x (Config.rand8 s.draws &&& kk)).advance

end Sys2Proof.Machine
end

