-- ==== Sys2Proof/Machine/ControlFlow.lean ====
section
/-! DEFINITION. Control flow (41_control_flow.md R73 to R81). Every target is absolute; a bad target is an
error only at the next fetch (R73). -/

namespace Sys2Proof.Machine

/-- `return` (R74). -/
def execRet (s : State) : Host.Outcome State Fault Refusal :=
  match s.pop with
  | some (a, t) => commit (t.setPc a)
  | none => raiseIn .ret .stackUnderflow s

/-- `call nnn` (R75): pushes `pc0 + 2`. -/
def execCall (nnn : Addr12) (s : State) : Host.Outcome State Fault Refusal :=
  match s.push (s.pc + 2#16) with
  | some t => commit (t.setPc (targetOf nnn))
  | none => raiseIn (.call nnn) .stackOverflow s

/-- `jump nnn` (R76). -/
def execJump (nnn : Addr12) (s : State) : Host.Outcome State Fault Refusal :=
  commit (s.setPc (targetOf nnn))

/-- `jump_offset nnn` (R77). -/
def execJumpOffset (nnn : Addr12) (s : State) : Host.Outcome State Fault Refusal :=
  commit (s.setPc (offsetTarget nnn s))

/-- `skip_equal Vx, kk` (R78, C1). -/
def execSkipEqual (x : RegIdx) (kk : Byte) (s : State) : Host.Outcome State Fault Refusal :=
  commit (s.skipIf (s.reg x == kk))

/-- `skip_not_equal Vx, kk` (R79, C1). -/
def execSkipNotEqual (x : RegIdx) (kk : Byte) (s : State) : Host.Outcome State Fault Refusal :=
  commit (s.skipIf (s.reg x != kk))

/-- `skip_equal_register Vx, Vy` (R80). -/
def execSkipEqualRegister (x y : RegIdx) (s : State) : Host.Outcome State Fault Refusal :=
  commit (s.skipIf (s.reg x == s.reg y))

/-- `skip_not_equal_register Vx, Vy` (R81). -/
def execSkipNotEqualRegister (x y : RegIdx) (s : State) : Host.Outcome State Fault Refusal :=
  commit (s.skipIf (s.reg x != s.reg y))

end Sys2Proof.Machine
end

