-- ==== Sys2Proof/Machine/Display.lean ====
section
/-! DEFINITION. The XOR pixel writer, the collision detector, clear and draw (45_display.md R104 to R109). -/

namespace Sys2Proof.Machine

/-- `XorPixel(px, py, b)` (R104): the new framebuffer, and `erased = old AND b`. -/
def xorPixel (f : Framebuffer) (px : Fin 64) (py : Fin 32) (b : Bool) : Framebuffer × Bool :=
  (Framebuffer.set f px py (f[py][px] ^^ b), f[py][px] && b)

/-- One sprite bit of draw's inner loop (R108): an `XorPixel` when the bit is 1, and the collision detector's
OR (R105). -/
def drawBit (x0 y0 : Byte) (row : Nat) (b : Byte) (acc : Framebuffer × Bool) (col : Nat) :
    Framebuffer × Bool :=
  if spriteBit b col then
    ((xorPixel acc.1 (columnOf x0 col) (lineOf y0 row) true).1,
      acc.2 || (xorPixel acc.1 (columnOf x0 col) (lineOf y0 row) true).2)
  else acc

/-- One sprite row: `for col = 0 to 7` (R108). -/
def drawRow (x0 y0 : Byte) (row : Nat) (b : Byte) (acc : Framebuffer × Bool) : Framebuffer × Bool :=
  [0, 1, 2, 3, 4, 5, 6, 7].foldl (drawBit x0 y0 row b) acc

/-- The sprite's rows from `row` on: `for row = 0 to n - 1` (R108). -/
def drawRows (x0 y0 : Byte) : Nat → List Byte → Framebuffer × Bool → Framebuffer × Bool
  | _, [], acc => acc
  | row, b :: bs, acc => drawRows x0 y0 (row + 1) bs (drawRow x0 y0 row b acc)

/-- `clear` (R107). -/
def execClear (s : State) : Host.Outcome State Fault Refusal :=
  commit (s.setFb blankScreen).advance

/-- The framebuffer and the collision after a whole sprite of `n` rows at I (R108): `V[x]` and `V[y]` are read
before VF is written (D14). -/
def drawSprite (x y : RegIdx) (n : Nibble) (s : State) : Framebuffer × Bool :=
  drawRows (s.reg x) (s.reg y) 0 (Memory.readBytes s.mem (dataAddress s) n.toNat) (s.fb, false)

/-- `draw Vx, Vy, n` (R108): VF is written always. -/
def execDraw (x y : RegIdx) (n : Nibble) (s : State) : Host.Outcome State Fault Refusal :=
  checkedAccess (.draw x y n) n.toNat s
    ((s.setFb (drawSprite x y n s).1).setVF (drawSprite x y n s).2)

end Sys2Proof.Machine
end

