-- ==== Sys2Proof/Machine/Input.lean ====
section
/-! DEFINITION. The three key instructions (47_input.md R116 to R119): they decode, and every execution
raises NotImplemented. "A model must not give them a meaning" (R116). -/

namespace Sys2Proof.Machine

/-- `skip_key_pressed Vx` (R117). -/
def execSkipKeyPressed (x : RegIdx) (s : State) : Host.Outcome State Fault Refusal :=
  raiseIn (.skipKeyPressed x) .notImplemented s

/-- `skip_key_not_pressed Vx` (R118). -/
def execSkipKeyNotPressed (x : RegIdx) (s : State) : Host.Outcome State Fault Refusal :=
  raiseIn (.skipKeyNotPressed x) .notImplemented s

/-- `wait_key_press Vx` (R119). -/
def execWaitKeyPress (x : RegIdx) (s : State) : Host.Outcome State Fault Refusal :=
  raiseIn (.waitKeyPress x) .notImplemented s

end Sys2Proof.Machine
end

