-- ==== Sys2Proof/Machine/MemoryTransfer.lean ====
section
/-! DEFINITION. Memory transfer through I (44_memory_transfer.md R100 to R103). The highest address is
checked before anything is written, and I is unchanged (R100). -/

namespace Sys2Proof.Machine

/-- `load_bcd Vx` (R101). -/
def execLoadBcd (x : RegIdx) (s : State) : Host.Outcome State Fault Refusal :=
  checkedAccess (.loadBcd x) 3 s
    (s.setMem (Memory.writeBytes s.mem (dataAddress s) (bcdDigits (s.reg x))))

/-- `store_memory Vx` (R102). -/
def execStoreMemory (x : RegIdx) (s : State) : Host.Outcome State Fault Refusal :=
  checkedAccess (.storeMemory x) (bulkCount x) s
    (s.setMem (Memory.writeBytes s.mem (dataAddress s) ((regsUpTo x).map s.reg)))

/-- The register file after `V[r] <- M[a + r]` for each register of a list. -/
def loadRegs (m : Memory) (a : Nat) : List RegIdx → Vector Byte 16 → Vector Byte 16
  | [], v => v
  | r :: rs, v => loadRegs m a rs (v.set r (Memory.read m (a + r.val)))

/-- `read_memory Vx` (R103). -/
def execReadMemory (x : RegIdx) (s : State) : Host.Outcome State Fault Refusal :=
  checkedAccess (.readMemory x) (bulkCount x) s
    (s.setRegs (loadRegs s.mem (dataAddress s) (regsUpTo x) s.v))

end Sys2Proof.Machine
end

