-- ==== Sys2Proof/Machine/Timers.lean ====
section
/-! DEFINITION. The timer instructions and the host's tick (46_timers.md R112 to R115). -/

namespace Sys2Proof.Machine

/-- `read_delay_timer Vx` (R112). -/
def execReadDelayTimer (x : RegIdx) (s : State) : Host.Outcome State Fault Refusal :=
  commit (s.setReg x s.dt).advance

/-- `set_delay_timer Vx` (R113). -/
def execSetDelayTimer (x : RegIdx) (s : State) : Host.Outcome State Fault Refusal :=
  commit (s.setDt (s.reg x)).advance

/-- `set_sound_timer Vx` (R114). -/
def execSetSoundTimer (x : RegIdx) (s : State) : Host.Outcome State Fault Refusal :=
  commit (s.setSt (s.reg x)).advance

/-- A timer after one tick: one lower, stopping at 0 (R115, D31). -/
def tickDown (b : Byte) : Byte := if b = 0#8 then 0#8 else b - 1#8

/-- `tick()` (R115): the host's decrement, between steps only (log 7). -/
def State.tick (s : State) : State := (s.setDt (tickDown s.dt)).setSt (tickDown s.st)

end Sys2Proof.Machine
end

