-- ==== Sys2Proof/Machine/Dispatch.lean ====
section
/-! DEFINITION. "execute(instruction) dispatches by instruction name" (40_step.md R67). -/

namespace Sys2Proof.Machine

/-- One arm per row of 30_encoding.md R53. -/
def exec (i : Instr) (s : State) : Host.Outcome State Fault Refusal :=
  match i with
  | .clear => Sys2Proof.Machine.execClear s
  | .ret => Sys2Proof.Machine.execRet s
  | .jump nnn => Sys2Proof.Machine.execJump nnn s
  | .call nnn => Sys2Proof.Machine.execCall nnn s
  | .skipEqual x kk => Sys2Proof.Machine.execSkipEqual x kk s
  | .skipNotEqual x kk => Sys2Proof.Machine.execSkipNotEqual x kk s
  | .skipEqualRegister x y => Sys2Proof.Machine.execSkipEqualRegister x y s
  | .loadByteToVx x kk => Sys2Proof.Machine.execLoadByteToVx x kk s
  | .addByteToVx x kk => Sys2Proof.Machine.execAddByteToVx x kk s
  | .setVxToVy x y => Sys2Proof.Machine.execSetVxToVy x y s
  | .orVxVy x y => Sys2Proof.Machine.execOrVxVy x y s
  | .andVxVy x y => Sys2Proof.Machine.execAndVxVy x y s
  | .xorVxVy x y => Sys2Proof.Machine.execXorVxVy x y s
  | .addVxVy x y => Sys2Proof.Machine.execAddVxVy x y s
  | .subVxVy x y => Sys2Proof.Machine.execSubVxVy x y s
  | .shrVxVy x y => Sys2Proof.Machine.execShrVxVy x y s
  | .subnVxVy x y => Sys2Proof.Machine.execSubnVxVy x y s
  | .shlVxVy x y => Sys2Proof.Machine.execShlVxVy x y s
  | .skipNotEqualRegister x y => Sys2Proof.Machine.execSkipNotEqualRegister x y s
  | .loadAddress nnn => Sys2Proof.Machine.execLoadAddress nnn s
  | .jumpOffset nnn => Sys2Proof.Machine.execJumpOffset nnn s
  | .random x kk => Sys2Proof.Machine.execRandom x kk s
  | .draw x y n => Sys2Proof.Machine.execDraw x y n s
  | .skipKeyPressed x => Sys2Proof.Machine.execSkipKeyPressed x s
  | .skipKeyNotPressed x => Sys2Proof.Machine.execSkipKeyNotPressed x s
  | .readDelayTimer x => Sys2Proof.Machine.execReadDelayTimer x s
  | .waitKeyPress x => Sys2Proof.Machine.execWaitKeyPress x s
  | .setDelayTimer x => Sys2Proof.Machine.execSetDelayTimer x s
  | .setSoundTimer x => Sys2Proof.Machine.execSetSoundTimer x s
  | .addI x => Sys2Proof.Machine.execAddI x s
  | .loadSprite x => Sys2Proof.Machine.execLoadSprite x s
  | .loadBcd x => Sys2Proof.Machine.execLoadBcd x s
  | .storeMemory x => Sys2Proof.Machine.execStoreMemory x s
  | .readMemory x => Sys2Proof.Machine.execReadMemory x s

end Sys2Proof.Machine
end

