-- ==== Sys2Proof/Machine/Step.lean ====
section
/-! DEFINITION. The one transaction of the block, `step()` (40_step.md R64), and the host's placing of one
instruction where the next step fetches. -/

namespace Sys2Proof.Machine

/-- `step()` (R64), checks in the order of R123: the latch, the fetch bound, the decode, the instruction. -/
def step (s : State) : Host.Outcome State Fault Refusal :=
  match s.fault with
  | some r => refuseStep r
  | none =>
    match fetch s with
    | none => raiseFetch s
    | some w =>
      match decode w with
      | .error _ => raiseDecode w s
      | .ok i => exec i s

/-- The state with a table word at PC, most significant byte first (R35). It stands for the host's `load`
(70_reset_and_hazards.md R137; log 10). -/
def State.withFetchWord (s : State) (nbits w : Nat) : State :=
  s.setMem (Memory.writeBytes s.mem s.pc.toNat
    [highByte (tableWord nbits w), lowByte (tableWord nbits w)])

end Sys2Proof.Machine
end

