-- ==== Sys2Proof/Machine/HostOps.lean ====
section
/-! DEFINITION. The host's interfaces (10_state.md R30) and duties (70_reset_and_hazards.md R136, R137, R145):
which operation may follow which, and what each does. -/

namespace Sys2Proof.Machine

/-- `read_fb()` (45_display.md R110): the pixel values; nothing changes. -/
def readFb (s : State) : Framebuffer := s.fb

/-- `read_st()` (R30). -/
def readSt (s : State) : Byte := s.st

/-- `read_fault()` (R30). -/
def readFault (s : State) : Option FaultRecord := s.fault

/-- The payload of an error (60_exceptions.md R120). -/
inductive ErrorPayload where
  | none
  | word (w : Word)
  | name (n : String)
  deriving DecidableEq, Repr

/-- The name of a word's catalog row (R122). -/
def rowName (w : Word) : Option String :=
  match decode w with
  | .ok i => some i.name
  | .error _ => none

/-- The payload of a record: the raw word of UnknownInstruction, the row's name of NotImplemented (R120,
R122). -/
def payloadOf (r : FaultRecord) : ErrorPayload :=
  match r.kind, r.word with
  | .unknownInstruction, some w => .word w
  | .notImplemented, some w =>
    match rowName w with
    | some n => .name n
    | none => .none
  | _, _ => .none

/-- `step()` as the host sees it (R63, R69, R121): the state afterwards, and `ok` (no record) or the error. -/
def hostStep (s : State) : State × Option FaultRecord :=
  match step s with
  | .next t => (t, t.fault)
  | .fault (.latched r) => (s, some r)
  | .refused _ => (s, s.fault)

/-- `load(a, byte)` (R137): "A load at an address above 0xFFF has no move in the model". -/
def hostLoad (s : State) (a : Nat) (b : Byte) : Option State :=
  if a < Config.memSize then some (s.setMem (Memory.write s.mem a b)) else none

/-- What the host can do to the block between steps (R30). The three reads change nothing. -/
inductive HostMove where
  | reset
  | load (a : Nat) (b : Byte)
  | step
  | tick
  deriving DecidableEq, Repr

/-- The block with the one thing the host must remember: whether a load is still allowed, that is, no step
has been taken since the reset (R137). The flag is the model's own (log 16). -/
structure Session where
  core : State
  loading : Bool
  deriving DecidableEq, Repr

/-- The block after construction, which is a reset (R136). -/
def startSession : Session := ⟨State.reset, true⟩

/-- One host operation, or nothing where R145 gives it no move. -/
def hostMove (m : HostMove) (c : Session) : Option Session :=
  match m with
  | .reset => some ⟨c.core.hostReset, true⟩
  | .load a b => if c.loading then (hostLoad c.core a b).map (fun s => ⟨s, true⟩) else none
  | .step => some ⟨(hostStep c.core).1, false⟩
  | .tick => some { c with core := c.core.tick }

/-- A sequence of host operations: any number of ticks may stand between two steps (R115, D20). -/
def hostMoves : List HostMove → Session → Option Session
  | [], c => some c
  | m :: ms, c =>
    match hostMove m c with
    | some d => hostMoves ms d
    | none => none

/-- A flat program from 0x200 on, loaded byte by byte (R137, R139). -/
def loadProgram : Nat → List Byte → List HostMove
  | _, [] => []
  | a, b :: bs => .load a b :: loadProgram (a + 1) bs

end Sys2Proof.Machine
end

