-- ==== Sys2Proof/Safety.lean ====
section
/-! DEFINITION. What claims are stated in: the parts of the state and what it means that a step leaves them
alone, the end of a run (70_reset_and_hazards.md R140), the invariants, and what a fault record says. -/

namespace Sys2Proof.Machine

/-! ## Parts of the state and frames -/

/-- The parts of the state, as R15 lists them, and the model's own two. -/
inductive Part where
  | regs
  | index
  | pc
  | stack
  | dt
  | st
  | mem
  | fb
  | fault
  | params
  | draws
  deriving DecidableEq, Repr

/-- The part holds in `t` what it held in `s`: memory byte by byte, the framebuffer pixel by pixel. -/
def Part.same (p : Part) (s t : State) : Prop :=
  match p with
  | .regs => ∀ r : RegIdx, t.reg r = s.reg r
  | .index => t.iReg = s.iReg
  | .pc => t.pc = s.pc
  | .stack => t.sp = s.sp ∧ ∀ k : Fin 16, t.stack[k] = s.stack[k]
  | .dt => t.dt = s.dt
  | .st => t.st = s.st
  | .mem => ∀ a : Nat, Memory.read t.mem a = Memory.read s.mem a
  | .fb => ∀ (px : Fin 64) (py : Fin 32), t.pixel px py = s.pixel px py
  | .fault => t.fault = s.fault
  | .params => t.params = s.params
  | .draws => t.draws = s.draws

/-- Every part but the named ones is unchanged. -/
def UnchangedBut (ps : List Part) (s t : State) : Prop := ∀ p : Part, p ∉ ps → p.same s t

/-- Every general register but the named ones is unchanged. -/
def RegsUnchangedBut (rs : List RegIdx) (s t : State) : Prop := ∀ r : RegIdx, r ∉ rs → t.reg r = s.reg r

/-- Every byte of memory outside the `n` bytes at `a` reads as before. -/
def MemUnchangedOutside (a n : Nat) (s t : State) : Prop :=
  ∀ b : Nat, (b < a ∨ a + n ≤ b) → Memory.read t.mem b = Memory.read s.mem b

/-- `exec i s` answers a next state with the property. -/
def Completes (i : Instr) (s : State) (P : State → Prop) : Prop := ∃ t, exec i s = .next t ∧ P t

/-- `exec i s` raises `k`: the fault latch is set with the instruction's word and PC, and everything else,
PC among it, is unchanged (40_step.md R69, 60_exceptions.md R122). That the error is kept in a latch, and what the
record holds, is the spec's decision (D18, D19; logs 3 and 4). -/
def Raises (i : Instr) (s : State) (k : ErrorKind) : Prop :=
  Completes i s fun t => t.fault = some ⟨k, some (encode i), s.pc⟩ ∧ UnchangedBut [.fault] s t

/-- What the five flag instructions leave (R83, R90 to R94): the result `res` in Vx and, with `ALU_SETS_VF`, the
flag in VF, which wins when x = 15; PC two on; nothing else. -/
def AluEffect (x : RegIdx) (res flag : Nat) (s t : State) : Prop :=
  (s.params.aluSetsVf = true →
    (t.reg regVF).toNat = flag ∧ (x ≠ regVF → (t.reg x).toNat = res) ∧ RegsUnchangedBut [x, regVF] s t) ∧
  (s.params.aluSetsVf = false → (t.reg x).toNat = res ∧ RegsUnchangedBut [x] s t) ∧
  t.pc = s.pc + 2#16 ∧ UnchangedBut [.regs, .pc] s t

/-- What an instruction that writes one register leaves: `b` in Vx, PC two on, nothing else. -/
def RegEffect (x : RegIdx) (b : Nat) (s t : State) : Prop :=
  (t.reg x).toNat = b ∧ RegsUnchangedBut [x] s t ∧ t.pc = s.pc + 2#16 ∧ UnchangedBut [.regs, .pc] s t

/-- The instructions executed one after another, while none raises. -/
def runAll : List Instr → State → Option State
  | [], s => some s
  | i :: is, s =>
    match exec i s with
    | .next t => if t.fault = none then runAll is t else none
    | _ => none

/-! ## The end of a run (R140) -/

/-- A step raised an error and FAULT is not `none`. -/
def Faulted (s : State) : Prop := s.fault ≠ none

/-- The next instruction is a jump to itself: `MemRead(a, 2) = 0x1000 + a` at PC = a. -/
def Idle (s : State) : Prop := s.fault = none ∧ fetch s = some (0x1000#16 + s.pc)

/-! ## Invariants -/

/-- What every run from reset keeps: memory is in canonical form, "Every value PC can reach is at most
0x10FE" (10_state.md R21), and every return address is at most 0x1000 (41_control_flow.md R74, R75). -/
def State.Inv (s : State) : Prop :=
  Memory.wf s.mem ∧ s.pc.toNat ≤ 0x10FE ∧ ∀ k : Fin 16, (s.stack[k]).toNat ≤ 0x1000

/-- The record `r` tells the truth about the state it was latched in (R120, R122): its PC is the PC, its
word is the word at the PC (`none` only where no word can be fetched), and the condition of its kind holds. -/
def RecordTrue (s : State) (r : FaultRecord) : Prop :=
  r.pc = s.pc ∧ r.word = fetch s ∧
    match r.kind with
    | .unknownInstruction => ∃ w, r.word = some w ∧ decode w = .error (.unknownInstruction w)
    | .stackOverflow => s.sp = 15 ∧ ∃ nnn, r.word = some (encode (.call nnn))
    | .stackUnderflow => s.sp = -1 ∧ r.word = some (encode .ret)
    | .indexOutOfBounds =>
      (r.word = none ∧ 0xFFF < s.pc.toNat + 1) ∨
      (∃ x y n, r.word = some (encode (.draw x y n)) ∧ 0 < n.toNat ∧ 0xFFF < s.iReg.toNat + n.toNat - 1) ∨
      (∃ x, r.word = some (encode (.loadBcd x)) ∧ 0xFFF < s.iReg.toNat + 2) ∨
      (∃ x, r.word = some (encode (.storeMemory x)) ∧ 0xFFF < s.iReg.toNat + x.val) ∨
      (∃ x, r.word = some (encode (.readMemory x)) ∧ 0xFFF < s.iReg.toNat + x.val)
    | .notImplemented =>
      ∃ x, r.word = some (encode (.skipKeyPressed x)) ∨ r.word = some (encode (.skipKeyNotPressed x)) ∨
        r.word = some (encode (.waitKeyPress x))

/-- Whatever the latch holds is true of the state. -/
def LatchTrue (s : State) : Prop := ∀ r, s.fault = some r → RecordTrue s r

/-- What every host operation keeps: the state's invariant, a true latch, and no fault before the first
step. -/
def Session.Inv (c : Session) : Prop :=
  c.core.Inv ∧ LatchTrue c.core ∧ (c.loading = true → c.core.fault = none)

end Sys2Proof.Machine
end

