-- ==== Sys2Proof/Certificates/Slice0/Obligations.lean ====
section
/-! DEFINITION. The statements about the model. Each docstring names the rules of spec/ it formalises, and,
where a clause rests on a choice of the model or on an inference or decision the spec marks as its own, that
mark or log entry. `Completes`, `Raises`, `UnchangedBut` and the other words are in Safety.lean. -/

open Sys2Proof Sys2Proof.Machine

/-! ## Encoding and decoding -/

/-- A few words of V-DEC-1 to V-DEC-14 (95_test_vectors.md) decode as listed. The bit patterns are the spec's
from general knowledge (D1, D2; log 11). -/
def Obligations.SampleWordsDecode : Prop :=
  decode 0xD125#16 = .ok (.draw 1 2 5#4) ∧
  decode 0x8AB4#16 = .ok (.addVxVy 0xA 0xB) ∧
  decode 0xA2F0#16 = .ok (.loadAddress 0x2F0#12) ∧
  decode 0x7FFF#16 = .ok (.addByteToVx 0xF 0xFF#8) ∧
  decode 0xFE65#16 = .ok (.readMemory 0xE) ∧
  decode 0x00EE#16 = .ok .ret ∧
  decode 0xE19E#16 = .ok (.skipKeyPressed 1) ∧
  decode 0x0000#16 = .error (.unknownInstruction 0x0000#16) ∧
  decode 0x5121#16 = .error (.unknownInstruction 0x5121#16) ∧
  decode 0x8128#16 = .error (.unknownInstruction 0x8128#16) ∧
  decode 0xE19F#16 = .error (.unknownInstruction 0xE19F#16) ∧
  decode 0xF0FF#16 = .error (.unknownInstruction 0xF0FF#16)

/-- The word of every row is its pattern of R53 with the fields at the places of R48, as exact numbers. The
patterns are the spec's from general knowledge (D1; log 11). -/
def Obligations.EveryWordIsItsPattern : Prop :=
  ∀ (x y : RegIdx) (n : Nibble) (kk : Byte) (nnn : Addr12),
    (encode .clear).toNat = 0x00E0 ∧
    (encode .ret).toNat = 0x00EE ∧
    (encode (.jump nnn)).toNat = 0x1000 + nnn.toNat ∧
    (encode (.call nnn)).toNat = 0x2000 + nnn.toNat ∧
    (encode (.skipEqual x kk)).toNat = 0x3000 + x.val * 0x100 + kk.toNat ∧
    (encode (.skipNotEqual x kk)).toNat = 0x4000 + x.val * 0x100 + kk.toNat ∧
    (encode (.skipEqualRegister x y)).toNat = 0x5000 + x.val * 0x100 + y.val * 0x10 ∧
    (encode (.loadByteToVx x kk)).toNat = 0x6000 + x.val * 0x100 + kk.toNat ∧
    (encode (.addByteToVx x kk)).toNat = 0x7000 + x.val * 0x100 + kk.toNat ∧
    (encode (.setVxToVy x y)).toNat = 0x8000 + x.val * 0x100 + y.val * 0x10 ∧
    (encode (.orVxVy x y)).toNat = 0x8001 + x.val * 0x100 + y.val * 0x10 ∧
    (encode (.andVxVy x y)).toNat = 0x8002 + x.val * 0x100 + y.val * 0x10 ∧
    (encode (.xorVxVy x y)).toNat = 0x8003 + x.val * 0x100 + y.val * 0x10 ∧
    (encode (.addVxVy x y)).toNat = 0x8004 + x.val * 0x100 + y.val * 0x10 ∧
    (encode (.subVxVy x y)).toNat = 0x8005 + x.val * 0x100 + y.val * 0x10 ∧
    (encode (.shrVxVy x y)).toNat = 0x8006 + x.val * 0x100 + y.val * 0x10 ∧
    (encode (.subnVxVy x y)).toNat = 0x8007 + x.val * 0x100 + y.val * 0x10 ∧
    (encode (.shlVxVy x y)).toNat = 0x800E + x.val * 0x100 + y.val * 0x10 ∧
    (encode (.skipNotEqualRegister x y)).toNat = 0x9000 + x.val * 0x100 + y.val * 0x10 ∧
    (encode (.loadAddress nnn)).toNat = 0xA000 + nnn.toNat ∧
    (encode (.jumpOffset nnn)).toNat = 0xB000 + nnn.toNat ∧
    (encode (.random x kk)).toNat = 0xC000 + x.val * 0x100 + kk.toNat ∧
    (encode (.draw x y n)).toNat = 0xD000 + x.val * 0x100 + y.val * 0x10 + n.toNat ∧
    (encode (.skipKeyPressed x)).toNat = 0xE09E + x.val * 0x100 ∧
    (encode (.skipKeyNotPressed x)).toNat = 0xE0A1 + x.val * 0x100 ∧
    (encode (.readDelayTimer x)).toNat = 0xF007 + x.val * 0x100 ∧
    (encode (.waitKeyPress x)).toNat = 0xF00A + x.val * 0x100 ∧
    (encode (.setDelayTimer x)).toNat = 0xF015 + x.val * 0x100 ∧
    (encode (.setSoundTimer x)).toNat = 0xF018 + x.val * 0x100 ∧
    (encode (.addI x)).toNat = 0xF01E + x.val * 0x100 ∧
    (encode (.loadSprite x)).toNat = 0xF029 + x.val * 0x100 ∧
    (encode (.loadBcd x)).toNat = 0xF033 + x.val * 0x100 ∧
    (encode (.storeMemory x)).toNat = 0xF055 + x.val * 0x100 ∧
    (encode (.readMemory x)).toNat = 0xF065 + x.val * 0x100

/-- R58: synthesizing a word from an instruction's pattern and decoding it gives the instruction back, with
the exact argument values, which are what the format's argument descriptors extract. -/
def Obligations.DecodeOfEncode : Prop :=
  ∀ i : Instr,
    decode (encode i) = .ok i ∧ i.format.argSpecs.map (fun a => a.extract (encode i)) = i.args

/-- A word that decodes is the word of its instruction: no bit of it is dropped. The masks cover every bit that
is not an argument by the spec's own reading (R54, D2; log 11). -/
def Obligations.EncodeOfDecode : Prop :=
  ∀ (w : Word) (i : Instr), decode w = .ok i → encode i = w

/-- No word matches two rows of the catalog (R52; the spec derives it). -/
def Obligations.NoWordMatchesTwoRows : Prop :=
  ∀ w : Word, (catalog.filter (fun d => d.covers w)).length ≤ 1

/-- The illegal words are exactly those of R55's list (which the spec derives from R53 and R54). -/
def Obligations.IllegalWordsAreExactlyThese : Prop :=
  ∀ w : Word,
    decode w = .error (.unknownInstruction w) ↔
      (w.toNat / 0x1000 = 0 ∧ w.toNat ≠ 0x00E0 ∧ w.toNat ≠ 0x00EE) ∨
      (w.toNat / 0x1000 = 5 ∧ w.toNat % 16 ≠ 0) ∨
      (w.toNat / 0x1000 = 8 ∧ w.toNat % 16 ∈ [8, 9, 0xA, 0xB, 0xC, 0xD, 0xF]) ∨
      (w.toNat / 0x1000 = 9 ∧ w.toNat % 16 ≠ 0) ∨
      (w.toNat / 0x1000 = 0xE ∧ w.toNat % 256 ∉ [0x9E, 0xA1]) ∨
      (w.toNat / 0x1000 = 0xF ∧ w.toNat % 256 ∉ [0x07, 0x0A, 0x15, 0x18, 0x1E, 0x29, 0x33, 0x55, 0x65])

/-- An instruction's two bytes, most significant first, decode to it and leave the rest of the bytes (R35,
R45); the word the two bytes make is `hi * 256 + lo`. -/
def Obligations.ByteStreamDecodesBigEndian : Prop :=
  (∀ hi lo : Byte, (joinBytes hi lo).toNat = hi.toNat * 256 + lo.toNat) ∧
  ∀ (i : Instr) (rest : List Byte),
    (encodeBytes i).map BitVec.toNat = [(encode i).toNat / 256, (encode i).toNat % 256] ∧
    decodeBytes (encodeBytes i ++ rest) = .ok (i, rest)

/-! ## The step -/

/-- R64, R65, R67: with no fault latched and both bytes in memory, the word `M[PC] * 256 + M[PC+1]` is decoded
and the step is exactly the execution of the instruction. Every meaning writes PC itself, so step adds nothing
around it. -/
def Obligations.StepRunsTheDecodedInstruction : Prop :=
  ∀ (s : State) (w : Word) (i : Instr),
    s.fault = none → s.pc.toNat + 1 ≤ 0xFFF →
    w.toNat = (Memory.read s.mem s.pc.toNat).toNat * 256 + (Memory.read s.mem (s.pc.toNat + 1)).toNat →
    decode w = .ok i → step s = exec i s

/-- A table word placed at PC is what the next step runs: the host's `load` (R137) and the big-endian fetch (R35)
agree. `withFetchWord` is the model's (log 10). -/
def Obligations.PlacedWordIsExecuted : Prop :=
  ∀ (s : State) (nbits w : Nat) (i : Instr),
    s.fault = none → s.pc.toNat + 1 ≤ 0xFFF → Memory.wf s.mem → decodeTableWord nbits w = some i →
    step (s.withFetchWord nbits w) = exec i (s.withFetchWord nbits w)

/-- R65 (the bound, the error kind and the record are the spec's decisions D12, D18, D19; log 5): a fetch with PC + 1
past memory raises IndexOutOfBounds with the word `none`, and changes nothing else. -/
def Obligations.FetchPastMemoryRaises : Prop :=
  ∀ s : State, s.fault = none → 0xFFF < s.pc.toNat + 1 →
    ∃ t, step s = .next t ∧ t.fault = some ⟨.indexOutOfBounds, none, s.pc⟩ ∧ UnchangedBut [.fault] s t

/-- R66 (the record it leaves is the spec's decision D18, D19; log 3): a fetched word that matches no row raises
UnknownInstruction with the word, and nothing else is written. -/
def Obligations.UnknownWordRaises : Prop :=
  ∀ (s : State) (w : Word), s.fault = none → fetch s = some w → (∀ d ∈ catalog, w &&& d.mask ≠ d.opcode) →
    ∃ t, step s = .next t ∧ t.fault = some ⟨.unknownInstruction, some w, s.pc⟩ ∧ UnchangedBut [.fault] s t

/-- R63 (the latch is the spec's decision D18; log 3): while FAULT holds a record the step is refused; the host
gets the same record again and the state it had. -/
def Obligations.FaultedStepIsRefused : Prop :=
  ∀ (s : State) (r : FaultRecord), s.fault = some r →
    step s = .fault (.latched r) ∧ hostStep s = (s, some r)

/-- R69 (the record's form is the spec's decision D18, D19; log 3): a step that raises leaves everything as it was
before, sets FAULT to a record with the fetched word and the PC of the failing instruction, and returns that error to
the caller. -/
def Obligations.FailingStepChangesOnlyTheLatch : Prop :=
  ∀ s t : State, step s = .next t → t.fault ≠ none →
    UnchangedBut [.fault] s t ∧
    ∃ k, t.fault = some ⟨k, fetch s, s.pc⟩ ∧ hostStep s = (t, some ⟨k, fetch s, s.pc⟩)

/-- R68 (exact sums: the spec's decision D11; log 5): what a step that commits does to PC, for every instruction:
the four that set PC are free, the four skips add 2 or 4, every other adds 2, with no wrap. -/
def Obligations.CommittedStepMovesPc : Prop :=
  ∀ (s t : State) (w : Word) (i : Instr),
    fetch s = some w → decode w = .ok i → step s = .next t → t.fault = none →
    match i with
    | .jump _ | .jumpOffset _ | .call _ | .ret => True
    | .skipEqual _ _ | .skipNotEqual _ _ | .skipEqualRegister _ _ | .skipNotEqualRegister _ _ =>
      t.pc.toNat = s.pc.toNat + 2 ∨ t.pc.toNat = s.pc.toNat + 4
    | _ => t.pc.toNat = s.pc.toNat + 2

/-- R121, R124, R127: no instruction stops the machine, from any state; a step answers a next state unless the
latch holds a fault. That an error's entry is a next state is log 3. -/
def Obligations.NothingStopsButTheLatch : Prop :=
  (∀ (i : Instr) (s : State), ∃ t, exec i s = .next t) ∧
  ∀ s : State, (∃ t, step s = .next t) ↔ s.fault = none

/-- R140 (the definition of a run's end is the spec's decision D34): at a jump to itself every further step leaves
the state unchanged. -/
def Obligations.IdleStepChangesNothing : Prop :=
  ∀ s : State, Idle s → step s = .next s

/-! ## Invariants -/

/-- R29, R136 (the values of I, SP, S, FB and FAULT are the spec's decisions D17, D18; log 15): the state after reset
meets the invariants, and so does the host's session after construction. That memory is a canonical list is the model's
(log 9), and so are the session and its loading flag (log 16). -/
def Obligations.ResetMeetsTheInvariants : Prop :=
  State.reset.Inv ∧ LatchTrue State.reset ∧ startSession.Inv

/-- Every step keeps: memory in canonical form (log 9), PC at most 0x10FE (R21), every return address at most
0x1000 (R74, R75). -/
def Obligations.StepKeepsTheInvariant : Prop :=
  ∀ s t : State, s.Inv → step s = .next t → t.Inv

/-- Whatever a step latches is true of the state: the record's PC, its word, and the condition of its kind in R120
(R122; the record's form is the spec's decision D19). -/
def Obligations.StepLatchesTheTruth : Prop :=
  ∀ s t : State, LatchTrue s → step s = .next t → LatchTrue t

/-- Every sequence of host operations keeps the invariants: resets, loads, steps and any number of ticks between
them (R30, R115, R145; log 16). -/
def Obligations.HostMovesKeepTheInvariants : Prop :=
  ∀ (ms : List HostMove) (c d : Session), c.Inv → hostMoves ms c = some d → d.Inv

/-- Memory in canonical form is determined by what it reads as (log 9), so equal memories are equal data. -/
def Obligations.EqualReadsAreEqualMemories : Prop :=
  ∀ m k : Memory, Memory.wf m → Memory.wf k → (∀ a, Memory.read m a = Memory.read k a) → m = k

/-! ## Reset and the host's interfaces -/

/-- R29, R136 (the values of I, SP, S, FB, FAULT are the spec's decision D17, D18): from any state, reset leaves
every register, slot, timer, byte and pixel 0, PC = 0x200, SP = -1, no fault. The parameters and the draw count
are the model's own and stay (log 16). -/
def Obligations.ResetLeavesTheseValues : Prop :=
  ∀ s : State,
    (∀ r, s.hostReset.reg r = 0#8) ∧ s.hostReset.iReg = 0#16 ∧ s.hostReset.pc = 0x200#16 ∧
    s.hostReset.sp = -1 ∧ (∀ k : Fin 16, s.hostReset.stack[k] = 0#16) ∧ s.hostReset.dt = 0#8 ∧
    s.hostReset.st = 0#8 ∧ (∀ a, Memory.read s.hostReset.mem a = 0#8) ∧
    (∀ px py, s.hostReset.pixel px py = false) ∧ s.hostReset.fault = none ∧
    s.hostReset.params = s.params ∧ s.hostReset.draws = s.draws

/-- R137, R139 (when the host may load is the spec's decision D21): a program of at most 3584 bytes loads from 0x200
byte by byte, its k-th byte at 0x200 + k, and changes nothing else; a longer one has no move. -/
def Obligations.ProgramLoadsFromStart : Prop :=
  ∀ bs : List Byte,
    (bs.length ≤ 3584 →
      ∃ c, hostMoves (loadProgram 0x200 bs) startSession = some c ∧ c.loading = true ∧
        (∀ (k : Nat) (h : k < bs.length), Memory.read c.core.mem (0x200 + k) = bs[k]) ∧
        MemUnchangedOutside 0x200 bs.length State.reset c.core ∧ UnchangedBut [.mem] State.reset c.core) ∧
    (3584 < bs.length → hostMoves (loadProgram 0x200 bs) startSession = none)

/-- R137, R145 (D21): once a step is taken, no load has a move until the next reset. -/
def Obligations.NoLoadAfterTheFirstStep : Prop :=
  ∀ (ms : List HostMove) (c d : Session) (a : Nat) (b : Byte),
    HostMove.reset ∉ ms → hostMoves (.step :: ms) c = some d → hostMove (.load a b) d = none

/-- R115 (D20, D31): any number of ticks lowers each timer by that number, stopping at 0, and changes nothing
else. -/
def Obligations.TicksLowerTheTimers : Prop :=
  ∀ (n : Nat) (s : State),
    (State.tick^[n] s).dt.toNat = s.dt.toNat - n ∧ (State.tick^[n] s).st.toNat = s.st.toNat - n ∧
    UnchangedBut [.dt, .st] s (State.tick^[n] s)

/-! ## Control flow -/

/-- R76 `jump`. -/
def Obligations.JumpSetsPc : Prop :=
  ∀ (s : State) (nnn : Addr12),
    Completes (.jump nnn) s fun t => t.pc.toNat = nnn.toNat ∧ UnchangedBut [.pc] s t

/-- R77 `jump_offset` (the sum is not reduced: the spec's decision D11): PC is the exact sum of nnn and V0. -/
def Obligations.JumpOffsetAddsV0 : Prop :=
  ∀ (s : State) (nnn : Addr12),
    Completes (.jumpOffset nnn) s fun t =>
      t.pc.toNat = nnn.toNat + (s.reg 0).toNat ∧ UnchangedBut [.pc] s t

/-- R75 `call`: below 15 the next slot gets the address after the call, and PC the target; at 15 it raises
StackOverflow and writes nothing else (the record is the spec's decision D18, D19; logs 3 and 4). -/
def Obligations.CallPushesTheReturnAddress : Prop :=
  ∀ (s : State) (nnn : Addr12),
    (s.sp < 15 →
      Completes (.call nnn) s fun t =>
        t.sp = s.sp + 1 ∧ t.pc.toNat = nnn.toNat ∧
        (∀ k : Fin 16, t.stack[k] = if (k.val : Int) = s.sp + 1 then s.pc + 2#16 else s.stack[k]) ∧
        UnchangedBut [.pc, .stack] s t) ∧
    (15 ≤ s.sp → Raises (.call nnn) s .stackOverflow)

/-- R74 `return`: PC gets the top slot, which keeps its value, and SP falls by one; on an empty stack it raises
StackUnderflow and writes nothing else (the record is the spec's decision D18, D19; logs 3 and 4). -/
def Obligations.ReturnPopsTheReturnAddress : Prop :=
  ∀ s : State,
    (0 ≤ s.sp →
      Completes .ret s fun t =>
        t.sp = s.sp - 1 ∧ (∀ k : Fin 16, (k.val : Int) = s.sp → t.pc = s.stack[k]) ∧
        (∀ k : Fin 16, t.stack[k] = s.stack[k]) ∧ UnchangedBut [.pc, .stack] s t) ∧
    (s.sp = -1 → Raises .ret s .stackUnderflow)

/-- S5 of 95_test_vectors.md (R74, R75): a call followed at once by a return restores PC to the instruction after
the call and the stack pointer to what it was. -/
def Obligations.ReturnUndoesCall : Prop :=
  ∀ (s : State) (nnn : Addr12), s.fault = none → s.sp < 15 →
    ∃ t, runAll [.call nnn, .ret] s = some t ∧ t.pc = s.pc + 2#16 ∧ t.sp = s.sp ∧
      (∀ k : Fin 16, (k.val : Int) ≤ s.sp → t.stack[k] = s.stack[k]) ∧ UnchangedBut [.pc, .stack] s t

/-- S3 (R75): from an empty stack 16 calls in a row succeed, whatever their targets, and the 17th raises
StackOverflow (the latch and its record are the spec's decision D18, D19; logs 3 and 4). -/
def Obligations.SixteenCallsThenOverflow : Prop :=
  ∀ (s : State) (targets : List Addr12) (nnn : Addr12),
    s.fault = none → s.sp = -1 → targets.length ≤ 16 →
    ∃ t, runAll (targets.map Instr.call) s = some t ∧ t.sp = (targets.length : Int) - 1 ∧
      (targets.length = 16 → Raises (.call nnn) t .stackOverflow)

/-- R78 `skip_equal` and R79 `skip_not_equal` (the conditions are the spec's decision D4, C1): the one skips when Vx
equals the byte, the other when it differs. -/
def Obligations.ImmediateSkipsFollowTheirNames : Prop :=
  ∀ (s : State) (x : RegIdx) (kk : Byte),
    (Completes (.skipEqual x kk) s fun t =>
      t.pc = (if (s.reg x).toNat = kk.toNat then s.pc + 4#16 else s.pc + 2#16) ∧ UnchangedBut [.pc] s t) ∧
    (Completes (.skipNotEqual x kk) s fun t =>
      t.pc = (if (s.reg x).toNat = kk.toNat then s.pc + 2#16 else s.pc + 4#16) ∧ UnchangedBut [.pc] s t)

/-- R80 `skip_equal_register` and R81 `skip_not_equal_register`; with x = y the one always skips and the other never
does. -/
def Obligations.RegisterSkipsCompareTwoRegisters : Prop :=
  ∀ (s : State) (x y : RegIdx),
    (Completes (.skipEqualRegister x y) s fun t =>
      t.pc = (if x = y ∨ (s.reg x).toNat = (s.reg y).toNat then s.pc + 4#16 else s.pc + 2#16) ∧
      UnchangedBut [.pc] s t) ∧
    (Completes (.skipNotEqualRegister x y) s fun t =>
      t.pc = (if x = y ∨ (s.reg x).toNat = (s.reg y).toNat then s.pc + 2#16 else s.pc + 4#16) ∧
      UnchangedBut [.pc] s t)

/-! ## Register load, arithmetic and logic -/

/-- R84 `load_byte_to_vx`: x = 15 writes VF as data. -/
def Obligations.LoadByteWritesVx : Prop :=
  ∀ (s : State) (x : RegIdx) (kk : Byte),
    Completes (.loadByteToVx x kk) s (RegEffect x kk.toNat s)

/-- R85 `add_byte_to_vx`: the sum modulo 256, and no carry is written, whatever `ALU_SETS_VF`. That no flag is written is
the spec's decision D9, through R83 (log 12). -/
def Obligations.AddByteWrapsWithoutCarry : Prop :=
  ∀ (s : State) (x : RegIdx) (kk : Byte),
    Completes (.addByteToVx x kk) s (RegEffect x (((s.reg x).toNat + kk.toNat) % 256) s)

/-- R86 `set_vx_to_vy`. -/
def Obligations.SetCopiesVy : Prop :=
  ∀ (s : State) (x y : RegIdx),
    Completes (.setVxToVy x y) s (RegEffect x (s.reg y).toNat s)

/-- R87, R88, R89: the three logic instructions, as numbers; no flag is written. That none is written is the spec's
decision D9, through R83 (log 12). -/
def Obligations.LogicCombinesVxAndVy : Prop :=
  ∀ (s : State) (x y : RegIdx),
    Completes (.orVxVy x y) s (RegEffect x ((s.reg x).toNat ||| (s.reg y).toNat) s) ∧
    Completes (.andVxVy x y) s (RegEffect x ((s.reg x).toNat &&& (s.reg y).toNat) s) ∧
    Completes (.xorVxVy x y) s (RegEffect x ((s.reg x).toNat ^^^ (s.reg y).toNat) s)

/-- R90 `add_vx_vy` (R83): the sum modulo 256; with `ALU_SETS_VF` VF is the carry, the exact sum's 256s (R96). The flag
value is the spec's from general knowledge (K5; log 12), the setting is a parameter (log 1). -/
def Obligations.AddGivesSumAndCarry : Prop :=
  ∀ (s : State) (x y : RegIdx),
    Completes (.addVxVy x y) s
      (AluEffect x (((s.reg x).toNat + (s.reg y).toNat) % 256) (((s.reg x).toNat + (s.reg y).toNat) / 256) s)

/-- R91 `sub_vx_vy` and R93 `subn_vx_vy` (R83): the difference modulo 256; with `ALU_SETS_VF` VF is 1 when there is no
borrow. The flag value is the spec's from general knowledge (K5, D6; log 12), the setting is a parameter (log 1). -/
def Obligations.SubtractGivesDifferenceAndNotBorrow : Prop :=
  ∀ (s : State) (x y : RegIdx),
    Completes (.subVxVy x y) s
      (AluEffect x ((256 + (s.reg x).toNat - (s.reg y).toNat) % 256)
        (if (s.reg y).toNat ≤ (s.reg x).toNat then 1 else 0) s) ∧
    Completes (.subnVxVy x y) s
      (AluEffect x ((256 + (s.reg y).toNat - (s.reg x).toNat) % 256)
        (if (s.reg x).toNat ≤ (s.reg y).toNat then 1 else 0) s)

/-- R92 `shr_vx_vy` and R94 `shl_vx_vy` (R83): the register that `SHIFT_SOURCE` names is halved or doubled modulo 256;
with `ALU_SETS_VF` VF is the bit shifted out. The flag value is the spec's from general knowledge (K5; log 12), the two
settings are parameters (log 1). -/
def Obligations.ShiftsByOne : Prop :=
  ∀ (s : State) (x y z : RegIdx), z = (if s.params.shiftSource = .vx then x else y) →
    Completes (.shrVxVy x y) s (AluEffect x ((s.reg z).toNat / 2) ((s.reg z).toNat % 2) s) ∧
    Completes (.shlVxVy x y) s (AluEffect x ((s.reg z).toNat * 2 % 256) ((s.reg z).toNat / 128) s)

/-- R95 `random` (R13): Vx is one fresh draw ANDed with the byte. The draw is the free value `Config.rand8` at the count
of draws, which advances by one (log 2): the statement holds whatever its values are. -/
def Obligations.RandomMasksOneFreshDraw : Prop :=
  ∀ (s : State) (x : RegIdx) (kk : Byte),
    Completes (.random x kk) s fun t =>
      (t.reg x).toNat = (Config.rand8 s.draws).toNat &&& kk.toNat ∧ t.draws = s.draws + 1 ∧
      (t.reg x).toNat ≤ kk.toNat ∧
      RegsUnchangedBut [x] s t ∧ t.pc = s.pc + 2#16 ∧ UnchangedBut [.regs, .pc, .draws] s t

/-! ## Index-register addressing -/

/-- R97 `load_address`. -/
def Obligations.LoadAddressWritesI : Prop :=
  ∀ (s : State) (nnn : Addr12),
    Completes (.loadAddress nnn) s fun t =>
      t.iReg.toNat = nnn.toNat ∧ t.pc = s.pc + 2#16 ∧ UnchangedBut [.index, .pc] s t

/-- R98 `add_i` (modulo 65536: the spec's decision D10; log 14): no flag, no fault. -/
def Obligations.AddIWrapsAtSixteenBits : Prop :=
  ∀ (s : State) (x : RegIdx),
    Completes (.addI x) s fun t =>
      t.iReg.toNat = (s.iReg.toNat + (s.reg x).toNat) % 65536 ∧ t.pc = s.pc + 2#16 ∧
      UnchangedBut [.index, .pc] s t

/-- R99 `load_sprite` (no masking: the spec's decision D16; log 14): five times Vx, exactly. -/
def Obligations.LoadSpriteIsFiveTimesVx : Prop :=
  ∀ (s : State) (x : RegIdx),
    Completes (.loadSprite x) s fun t =>
      t.iReg.toNat = (s.reg x).toNat * 5 ∧ t.pc = s.pc + 2#16 ∧ UnchangedBut [.index, .pc] s t

/-! ## Memory transfer -/

/-- R101 `load_bcd`: the three digits at I, I+1, I+2; past memory it raises IndexOutOfBounds and writes
no byte (the record is the spec's decision D18, D19; logs 3 and 4). -/
def Obligations.LoadBcdWritesThreeDigits : Prop :=
  ∀ (s : State) (x : RegIdx), Memory.wf s.mem →
    (s.iReg.toNat + 2 ≤ 0xFFF →
      Completes (.loadBcd x) s fun t =>
        (Memory.read t.mem s.iReg.toNat).toNat = (s.reg x).toNat / 100 ∧
        (Memory.read t.mem (s.iReg.toNat + 1)).toNat = (s.reg x).toNat / 10 % 10 ∧
        (Memory.read t.mem (s.iReg.toNat + 2)).toNat = (s.reg x).toNat % 10 ∧
        MemUnchangedOutside s.iReg.toNat 3 s t ∧ t.pc = s.pc + 2#16 ∧ UnchangedBut [.mem, .pc] s t) ∧
    (0xFFF < s.iReg.toNat + 2 → Raises (.loadBcd x) s .indexOutOfBounds)

/-- R102 `store_memory`: V0 to Vx at I to I+x; past memory it raises IndexOutOfBounds and writes no byte (the record
is the spec's decision D18, D19; logs 3 and 4). -/
def Obligations.StoreMemoryCopiesRegistersOut : Prop :=
  ∀ (s : State) (x : RegIdx), Memory.wf s.mem →
    (s.iReg.toNat + x.val ≤ 0xFFF →
      Completes (.storeMemory x) s fun t =>
        (∀ r : RegIdx, r ≤ x → Memory.read t.mem (s.iReg.toNat + r.val) = s.reg r) ∧
        MemUnchangedOutside s.iReg.toNat (x.val + 1) s t ∧ t.pc = s.pc + 2#16 ∧
        UnchangedBut [.mem, .pc] s t) ∧
    (0xFFF < s.iReg.toNat + x.val → Raises (.storeMemory x) s .indexOutOfBounds)

/-- R103 `read_memory`: V0 to Vx from I to I+x, VF as data when x = 15; past memory it raises IndexOutOfBounds and loads
nothing (the record is the spec's decision D18, D19; logs 3 and 4). -/
def Obligations.ReadMemoryCopiesRegistersIn : Prop :=
  ∀ (s : State) (x : RegIdx),
    (s.iReg.toNat + x.val ≤ 0xFFF →
      Completes (.readMemory x) s fun t =>
        (∀ r : RegIdx, t.reg r = if r ≤ x then Memory.read s.mem (s.iReg.toNat + r.val) else s.reg r) ∧
        t.pc = s.pc + 2#16 ∧ UnchangedBut [.regs, .pc] s t) ∧
    (0xFFF < s.iReg.toNat + x.val → Raises (.readMemory x) s .indexOutOfBounds)

/-- S8 (R100, which the spec derives from it): store, overwrite registers in any way, reload: V0 to Vx are as before, for
every x. -/
def Obligations.ReloadRestoresStoredRegisters : Prop :=
  ∀ (s : State) (x : RegIdx) (ws : List (RegIdx × Byte)),
    s.fault = none → Memory.wf s.mem → s.iReg.toNat + x.val ≤ 0xFFF →
    ∃ t, runAll (.storeMemory x :: (ws.map fun p => Instr.loadByteToVx p.1 p.2) ++ [.readMemory x]) s = some t ∧
      (∀ r : RegIdx, r ≤ x → t.reg r = s.reg r) ∧ t.iReg = s.iReg

/-- R43, R142 (which the spec derives): bytes that store_memory writes over the next instruction are the word the very
next step fetches, V0 as bits 15 to 8 (R35). -/
def Obligations.StoredWordIsFetchedNext : Prop :=
  ∀ (s : State) (x : RegIdx), Memory.wf s.mem → 1 ≤ x.val → s.iReg.toNat = s.pc.toNat + 2 →
    s.iReg.toNat + x.val ≤ 0xFFF →
    Completes (.storeMemory x) s fun t =>
      ∃ w, fetch t = some w ∧ w.toNat = (s.reg 0).toNat * 256 + (s.reg 1).toNat

/-! ## Display -/

/-- R107 `clear`. -/
def Obligations.ClearZeroesEveryPixel : Prop :=
  ∀ s : State,
    Completes .clear s fun t =>
      (∀ px py, t.pixel px py = false) ∧ t.pc = s.pc + 2#16 ∧ UnchangedBut [.fb, .pc] s t

/-- R108 `draw`, pixel by pixel (R104, R105, R109, R111; the bit order and the reads before the write are the spec's
D13, D14, n = 0 its D15; log 13): the new pixel is the old one XOR the sprite bit that falls on it, at the coordinates
modulo 64 and 32; VF is 1 exactly when a set bit falls on a set pixel. A row past memory raises IndexOutOfBounds and
draws nothing (its record: D18, D19; logs 3 and 4). -/
def Obligations.DrawXorsTheSprite : Prop :=
  ∀ (s : State) (x y : RegIdx) (n : Nibble) (hit : Fin 64 → Fin 32 → Prop),
    (∀ px py, hit px py ↔
      ∃ row col : Nat, row < n.toNat ∧ col < 8 ∧ px.val = ((s.reg x).toNat + col) % 64 ∧
        py.val = ((s.reg y).toNat + row) % 32 ∧
        (Memory.read s.mem (s.iReg.toNat + row)).getLsbD (7 - col) = true) →
    ((n = 0#4 ∨ s.iReg.toNat + n.toNat - 1 ≤ 0xFFF) →
      Completes (.draw x y n) s fun t =>
        (∀ px py, (hit px py → t.pixel px py = !s.pixel px py) ∧ (¬hit px py → t.pixel px py = s.pixel px py)) ∧
        ((∃ px py, hit px py ∧ s.pixel px py = true) → t.reg regVF = 1#8) ∧
        ((∀ px py, hit px py → s.pixel px py = false) → t.reg regVF = 0#8) ∧
        RegsUnchangedBut [regVF] s t ∧ t.pc = s.pc + 2#16 ∧ UnchangedBut [.regs, .fb, .pc] s t) ∧
    (0 < n.toNat → 0xFFF < s.iReg.toNat + n.toNat - 1 → Raises (.draw x y n) s .indexOutOfBounds)

/-- S9 (R104, R108; the bit order is the spec's D13, that n = 0 draws nothing for any I its D15; log 13): drawing the
same sprite at the same place twice restores every pixel, whatever stood there, and the second draw reports a collision
exactly when some sprite bit is 1 on a pixel that was 0, since that is what the first draw left set. VF is no coordinate
here: the first draw writes it, so the second would stand elsewhere; `DrawXorsTheSprite` covers x or y = VF for one
draw. -/
def Obligations.DrawingTwiceRestoresTheScreen : Prop :=
  ∀ (s : State) (x y : RegIdx) (n : Nibble), s.fault = none → x ≠ regVF → y ≠ regVF →
    (n = 0#4 ∨ s.iReg.toNat + n.toNat - 1 ≤ 0xFFF) →
    ∃ t, runAll [.draw x y n, .draw x y n] s = some t ∧ (∀ px py, t.pixel px py = s.pixel px py) ∧
      (t.reg regVF = 1#8 ↔
        ∃ row col : Nat, row < n.toNat ∧ col < 8 ∧
          (Memory.read s.mem (s.iReg.toNat + row)).getLsbD (7 - col) = true ∧
          s.pixel (Fin.ofNat 64 ((s.reg x).toNat + col)) (Fin.ofNat 32 ((s.reg y).toNat + row)) = false) ∧
      RegsUnchangedBut [regVF] s t

/-! ## Timers and input -/

/-- R112 `read_delay_timer` and R113 `set_delay_timer`. -/
def Obligations.DelayTimerTransfers : Prop :=
  ∀ (s : State) (x : RegIdx),
    Completes (.readDelayTimer x) s (RegEffect x s.dt.toNat s) ∧
    (Completes (.setDelayTimer x) s fun t =>
      t.dt = s.reg x ∧ t.pc = s.pc + 2#16 ∧ UnchangedBut [.dt, .pc] s t)

/-- R114 `set_sound_timer` (that the core makes no sound is the spec's decision D32). -/
def Obligations.SoundTimerTakesVx : Prop :=
  ∀ (s : State) (x : RegIdx),
    Completes (.setSoundTimer x) s fun t =>
      t.st = s.reg x ∧ t.pc = s.pc + 2#16 ∧ UnchangedBut [.st, .pc] s t

/-- R117, R118, R119: each key instruction, whatever its register, raises NotImplemented, whose payload is its name, and
changes nothing else (the record is the spec's decision D18, D19, that no meaning is given its D23; logs 3, 4 and 18). -/
def Obligations.KeyInstructionsRaiseNotImplemented : Prop :=
  ∀ (s : State) (x : RegIdx),
    (Raises (.skipKeyPressed x) s .notImplemented ∧
      payloadOf ⟨.notImplemented, some (encode (.skipKeyPressed x)), s.pc⟩ = .name "skip_key_pressed") ∧
    (Raises (.skipKeyNotPressed x) s .notImplemented ∧
      payloadOf ⟨.notImplemented, some (encode (.skipKeyNotPressed x)), s.pc⟩ = .name "skip_key_not_pressed") ∧
    (Raises (.waitKeyPress x) s .notImplemented ∧
      payloadOf ⟨.notImplemented, some (encode (.waitKeyPress x)), s.pc⟩ = .name "wait_key_press")

/-! ## Rules over all instructions -/

/-- R18 (which the spec derives): which registers an instruction can write, for every instruction: every other register
keeps its value. -/
def Obligations.OnlyTheTableWritesRegisters : Prop :=
  ∀ (i : Instr) (s t : State), exec i s = .next t →
    match i with
    | .loadByteToVx x _ | .random x _ | .addByteToVx x _ | .setVxToVy x _ | .orVxVy x _ | .andVxVy x _
    | .xorVxVy x _ | .readDelayTimer x => RegsUnchangedBut [x] s t
    | .addVxVy x _ | .subVxVy x _ | .subnVxVy x _ | .shrVxVy x _ | .shlVxVy x _ =>
      RegsUnchangedBut [x, regVF] s t ∧ (s.params.aluSetsVf = false → RegsUnchangedBut [x] s t)
    | .draw _ _ _ => RegsUnchangedBut [regVF] s t
    | .readMemory x => ∀ r : RegIdx, x < r → t.reg r = s.reg r
    | _ => ∀ r : RegIdx, t.reg r = s.reg r

/-- R37: of all instructions only load_bcd and store_memory write memory, and only the three bytes and the x+1 bytes at
I. -/
def Obligations.OnlyTwoInstructionsWriteMemory : Prop :=
  ∀ (i : Instr) (s t : State), Memory.wf s.mem → exec i s = .next t →
    match i with
    | .loadBcd _ => MemUnchangedOutside (dataAddress s) 3 s t
    | .storeMemory x => MemUnchangedOutside (dataAddress s) (x.val + 1) s t
    | _ => ∀ a, Memory.read t.mem a = Memory.read s.mem a

/-- R20, R22, R24, R26: the only writers of I, of the stack, of each timer and of the framebuffer; no instruction changes
the parameters, and only random takes a draw (logs 1 and 2). -/
def Obligations.EachPartHasItsWriters : Prop :=
  ∀ (i : Instr) (s t : State), exec i s = .next t →
    Part.params.same s t ∧
    (t.iReg ≠ s.iReg → i.name ∈ ["load_address", "add_i", "load_sprite"]) ∧
    (¬Part.stack.same s t → i.name ∈ ["call", "return"]) ∧
    (t.dt ≠ s.dt → i.name = "set_delay_timer") ∧
    (t.st ≠ s.st → i.name = "set_sound_timer") ∧
    (¬Part.fb.same s t → i.name ∈ ["clear", "draw"]) ∧
    (t.draws ≠ s.draws → i.name = "random")

/-- R24 ("No instruction reads ST"; the rule carries the spec's decision D32): running from a state with another ST gives
the same next state, with ST as the instruction wrote it or as it was. -/
def Obligations.NoInstructionReadsSt : Prop :=
  ∀ (i : Instr) (s t : State) (b : Byte), exec i s = .next t →
    exec i (s.setSt b) = .next (if i.name = "set_sound_timer" then t else t.setSt b)
end

