-- ==== Sys2Proof/Laws/Decode.lean ====
section
/-! SUPPORT. What the encoder's patterns have under the catalog's masks and in the fields, once per format. -/

namespace Sys2Proof

/-! ## Patterns as numbers -/

theorem wordAddr_toNat (o : Nibble) (nnn : Addr12) :
    (wordAddr o nnn).toNat = o.toNat * 0x1000 + nnn.toNat := by
  have h := nnn.isLt
  show (o ++ nnn).toNat = _
  rw [BitVec.toNat_append, ← Nat.shiftLeft_add_eq_or_of_lt h, Nat.shiftLeft_eq]

theorem wordXkk_toNat (o : Nibble) (x : RegIdx) (kk : Byte) :
    (wordXkk o x kk).toNat = o.toNat * 0x1000 + x.val * 0x100 + kk.toNat := by
  have h := kk.isLt
  have hx : (regNibble x).toNat < 2 ^ 4 := (regNibble x).isLt
  show (o ++ regNibble x ++ kk).toNat = _
  rw [BitVec.toNat_append, BitVec.toNat_append, ← Nat.shiftLeft_add_eq_or_of_lt h,
    ← Nat.shiftLeft_add_eq_or_of_lt hx, Nat.shiftLeft_eq, Nat.shiftLeft_eq]
  show (o.toNat * 2 ^ 4 + x.val) * 2 ^ 8 + kk.toNat = _
  omega

theorem wordXyn_toNat (o : Nibble) (x y : RegIdx) (n : Nibble) :
    (wordXyn o x y n).toNat = o.toNat * 0x1000 + x.val * 0x100 + y.val * 0x10 + n.toNat := by
  have h := n.isLt
  have hx : (regNibble x).toNat < 2 ^ 4 := (regNibble x).isLt
  have hy : (regNibble y).toNat < 2 ^ 4 := (regNibble y).isLt
  show (o ++ regNibble x ++ regNibble y ++ n).toNat = _
  rw [BitVec.toNat_append, BitVec.toNat_append, BitVec.toNat_append, ← Nat.shiftLeft_add_eq_or_of_lt h,
    ← Nat.shiftLeft_add_eq_or_of_lt hy, ← Nat.shiftLeft_add_eq_or_of_lt hx, Nat.shiftLeft_eq,
    Nat.shiftLeft_eq, Nat.shiftLeft_eq]
  show ((o.toNat * 2 ^ 4 + x.val) * 2 ^ 4 + y.val) * 2 ^ 4 + n.toNat = _
  omega

/-- Two bytes joined, as a number (R35). -/
theorem joinBytes_toNat (hi lo : Byte) : (joinBytes hi lo).toNat = hi.toNat * 256 + lo.toNat := by
  have h := lo.isLt
  show (hi ++ lo).toNat = _
  rw [BitVec.toNat_append, ← Nat.shiftLeft_add_eq_or_of_lt h, Nat.shiftLeft_eq]

/-- A word is the two bytes that memory holds of it (R35). -/
@[simp] theorem joinBytes_split (w : Word) : joinBytes (highByte w) (lowByte w) = w := by
  have := w.isLt
  apply BitVec.eq_of_toNat_eq
  rw [joinBytes_toNat, highByte, lowByte, BitVec.extractLsb'_toNat, BitVec.extractLsb'_toNat,
    Nat.shiftRight_eq_div_pow, Nat.shiftRight_eq_div_pow]
  omega

/-! ## Fields and masks as numbers -/

theorem and_low_mask (w : Word) (k : Nat) (hk : k ≤ 16) :
    (w &&& BitVec.ofNat 16 (2 ^ k - 1)).toNat = w.toNat % 2 ^ k := by
  have h : 2 ^ k - 1 < 2 ^ 16 := by
    have := Nat.pow_le_pow_right (n := 2) (by omega) hk
    have := Nat.two_pow_pos k
    omega
  rw [BitVec.toNat_and, BitVec.toNat_ofNat, Nat.mod_eq_of_lt h, Nat.and_two_pow_sub_one_eq_mod]

theorem extract_nnn (w : Word) : argNnn.extract w = w.toNat % 0x1000 := and_low_mask w 12 (by omega)
theorem extract_kk (w : Word) : argKk.extract w = w.toNat % 0x100 := and_low_mask w 8 (by omega)
theorem extract_n (w : Word) : argN.extract w = w.toNat % 0x10 := and_low_mask w 4 (by omega)

/-- A field of bits above a shift: shifting the masked word is masking the shifted word. -/
theorem shifted_field (w : Word) (s : Nat) :
    ((w &&& (0x000F#16 <<< s)) >>> s).toNat = w.toNat / 2 ^ s % 16 := by
  have h : (w &&& (0x000F#16 <<< s)) >>> s = (w >>> s) &&& 0x000F#16 := by
    ext i hi
    by_cases h : s + i < 16
    · simp [h]
    · simp [BitVec.getLsbD_of_ge w (s + i) (by omega)]
  rw [h]
  have := and_low_mask (w >>> s) 4 (by omega)
  rw [show (0x000F#16) = BitVec.ofNat 16 (2 ^ 4 - 1) from rfl, this, BitVec.toNat_ushiftRight,
    Nat.shiftRight_eq_div_pow, show 2 ^ 4 = 16 from rfl]

theorem extract_x (w : Word) : argX.extract w = w.toNat / 0x100 % 16 := shifted_field w 8
theorem extract_y (w : Word) : argY.extract w = w.toNat / 0x10 % 16 := shifted_field w 4

/-! ## A pattern's fields are what was placed -/

@[simp] theorem fieldNnn_wordAddr (o : Nibble) (nnn : Addr12) : fieldNnn (wordAddr o nnn) = nnn := by
  have h := nnn.isLt
  apply BitVec.eq_of_toNat_eq
  rw [fieldNnn, extract_nnn, wordAddr_toNat, BitVec.toNat_ofNat]
  omega

@[simp] theorem fieldX_wordXkk (o : Nibble) (x : RegIdx) (kk : Byte) : fieldX (wordXkk o x kk) = x := by
  have h := kk.isLt
  ext
  rw [fieldX, extract_x, wordXkk_toNat, Fin.val_ofNat]
  omega

@[simp] theorem fieldKk_wordXkk (o : Nibble) (x : RegIdx) (kk : Byte) : fieldKk (wordXkk o x kk) = kk := by
  have h := kk.isLt
  apply BitVec.eq_of_toNat_eq
  rw [fieldKk, extract_kk, wordXkk_toNat, BitVec.toNat_ofNat]
  omega

@[simp] theorem fieldX_wordXyn (o : Nibble) (x y : RegIdx) (n : Nibble) : fieldX (wordXyn o x y n) = x := by
  have h := n.isLt
  ext
  rw [fieldX, extract_x, wordXyn_toNat, Fin.val_ofNat]
  omega

@[simp] theorem fieldY_wordXyn (o : Nibble) (x y : RegIdx) (n : Nibble) : fieldY (wordXyn o x y n) = y := by
  have h := n.isLt
  ext
  rw [fieldY, extract_y, wordXyn_toNat, Fin.val_ofNat]
  omega

@[simp] theorem fieldN_wordXyn (o : Nibble) (x y : RegIdx) (n : Nibble) : fieldN (wordXyn o x y n) = n := by
  have h := n.isLt
  apply BitVec.eq_of_toNat_eq
  rw [fieldN, extract_n, wordXyn_toNat, BitVec.toNat_ofNat]
  omega

/-! ## A pattern's fixed bits are what a mask keeps -/

theorem mask_wordAddr (o : Nibble) (nnn : Addr12) : wordAddr o nnn &&& 0xF000#16 = wordAddr o 0#12 := by
  show (o ++ nnn) &&& (0xF#4 ++ 0x000#12) = o ++ 0#12
  rw [BitVec.and_append, BitVec.and_zero, show (0xF#4) = BitVec.allOnes 4 from rfl, BitVec.and_allOnes]

theorem mask_wordXkk (o : Nibble) (x : RegIdx) (kk : Byte) :
    wordXkk o x kk &&& 0xF000#16 = wordXkk o 0 0#8 := by
  show (o ++ regNibble x ++ kk) &&& (0xF#4 ++ 0x0#4 ++ 0x00#8) = o ++ 0x0#4 ++ 0#8
  rw [BitVec.and_append, BitVec.and_append, BitVec.and_zero, BitVec.and_zero,
    show (0xF#4) = BitVec.allOnes 4 from rfl, BitVec.and_allOnes]

theorem mask_wordXff (o : Nibble) (x : RegIdx) (kk : Byte) :
    wordXkk o x kk &&& 0xF0FF#16 = wordXkk o 0 kk := by
  show (o ++ regNibble x ++ kk) &&& (0xF#4 ++ 0x0#4 ++ 0xFF#8) = o ++ 0x0#4 ++ kk
  rw [BitVec.and_append, BitVec.and_append, BitVec.and_zero, show (0xF#4) = BitVec.allOnes 4 from rfl,
    show (0xFF#8) = BitVec.allOnes 8 from rfl, BitVec.and_allOnes, BitVec.and_allOnes]

theorem mask_wordXyf (o : Nibble) (x y : RegIdx) (n : Nibble) :
    wordXyn o x y n &&& 0xF00F#16 = wordXyn o 0 0 n := by
  show (o ++ regNibble x ++ regNibble y ++ n) &&& (0xF#4 ++ 0x0#4 ++ 0x0#4 ++ 0xF#4) = o ++ 0x0#4 ++ 0x0#4 ++ n
  rw [BitVec.and_append, BitVec.and_append, BitVec.and_append, BitVec.and_zero, BitVec.and_zero,
    show (0xF#4) = BitVec.allOnes 4 from rfl, BitVec.and_allOnes, BitVec.and_allOnes]

theorem mask_wordXyn (o : Nibble) (x y : RegIdx) (n : Nibble) :
    wordXyn o x y n &&& 0xF000#16 = wordXyn o 0 0 0#4 := by
  show (o ++ regNibble x ++ regNibble y ++ n) &&& (0xF#4 ++ 0x0#4 ++ 0x0#4 ++ 0x0#4) =
    o ++ 0x0#4 ++ 0x0#4 ++ 0#4
  rw [BitVec.and_append, BitVec.and_append, BitVec.and_append, BitVec.and_zero, BitVec.and_zero,
    BitVec.and_zero, show (0xF#4) = BitVec.allOnes 4 from rfl, BitVec.and_allOnes]

end Sys2Proof
end

