-- ==== Sys2Proof/Laws/State.lean ====
section
/-! SUPPORT. One lemma per field per field write of Machine/Ops.lean, so that no proof unfolds a record
update, and the register read after each write. -/

namespace Sys2Proof.Machine

/-! ### setPc -/

@[simp] theorem State.setPc_v (s : State) (a : Word) : (s.setPc a).v = s.v := rfl
@[simp] theorem State.setPc_iReg (s : State) (a : Word) : (s.setPc a).iReg = s.iReg := rfl
@[simp] theorem State.setPc_pc (s : State) (a : Word) : (s.setPc a).pc = a := rfl
@[simp] theorem State.setPc_stack (s : State) (a : Word) : (s.setPc a).stack = s.stack := rfl
@[simp] theorem State.setPc_depth (s : State) (a : Word) : (s.setPc a).depth = s.depth := rfl
@[simp] theorem State.setPc_dt (s : State) (a : Word) : (s.setPc a).dt = s.dt := rfl
@[simp] theorem State.setPc_st (s : State) (a : Word) : (s.setPc a).st = s.st := rfl
@[simp] theorem State.setPc_mem (s : State) (a : Word) : (s.setPc a).mem = s.mem := rfl
@[simp] theorem State.setPc_fb (s : State) (a : Word) : (s.setPc a).fb = s.fb := rfl
@[simp] theorem State.setPc_fault (s : State) (a : Word) : (s.setPc a).fault = s.fault := rfl
@[simp] theorem State.setPc_params (s : State) (a : Word) : (s.setPc a).params = s.params := rfl
@[simp] theorem State.setPc_draws (s : State) (a : Word) : (s.setPc a).draws = s.draws := rfl
@[simp] theorem State.setPc_reg (s : State) (a : Word) (r : RegIdx) : (s.setPc a).reg r = s.reg r := rfl
@[simp] theorem State.setPc_sp (s : State) (a : Word) : (s.setPc a).sp = s.sp := rfl
@[simp] theorem State.setPc_pixel (s : State) (a : Word) (px : Fin 64) (py : Fin 32) :
    (s.setPc a).pixel px py = s.pixel px py := rfl

/-! ### setI -/

@[simp] theorem State.setI_v (s : State) (a : Word) : (s.setI a).v = s.v := rfl
@[simp] theorem State.setI_iReg (s : State) (a : Word) : (s.setI a).iReg = a := rfl
@[simp] theorem State.setI_pc (s : State) (a : Word) : (s.setI a).pc = s.pc := rfl
@[simp] theorem State.setI_stack (s : State) (a : Word) : (s.setI a).stack = s.stack := rfl
@[simp] theorem State.setI_depth (s : State) (a : Word) : (s.setI a).depth = s.depth := rfl
@[simp] theorem State.setI_dt (s : State) (a : Word) : (s.setI a).dt = s.dt := rfl
@[simp] theorem State.setI_st (s : State) (a : Word) : (s.setI a).st = s.st := rfl
@[simp] theorem State.setI_mem (s : State) (a : Word) : (s.setI a).mem = s.mem := rfl
@[simp] theorem State.setI_fb (s : State) (a : Word) : (s.setI a).fb = s.fb := rfl
@[simp] theorem State.setI_fault (s : State) (a : Word) : (s.setI a).fault = s.fault := rfl
@[simp] theorem State.setI_params (s : State) (a : Word) : (s.setI a).params = s.params := rfl
@[simp] theorem State.setI_draws (s : State) (a : Word) : (s.setI a).draws = s.draws := rfl
@[simp] theorem State.setI_reg (s : State) (a : Word) (r : RegIdx) : (s.setI a).reg r = s.reg r := rfl
@[simp] theorem State.setI_sp (s : State) (a : Word) : (s.setI a).sp = s.sp := rfl
@[simp] theorem State.setI_pixel (s : State) (a : Word) (px : Fin 64) (py : Fin 32) :
    (s.setI a).pixel px py = s.pixel px py := rfl

/-! ### setRegs -/

@[simp] theorem State.setRegs_v (s : State) (v : Vector Byte 16) : (s.setRegs v).v = v := rfl
@[simp] theorem State.setRegs_iReg (s : State) (v : Vector Byte 16) : (s.setRegs v).iReg = s.iReg := rfl
@[simp] theorem State.setRegs_pc (s : State) (v : Vector Byte 16) : (s.setRegs v).pc = s.pc := rfl
@[simp] theorem State.setRegs_stack (s : State) (v : Vector Byte 16) : (s.setRegs v).stack = s.stack := rfl
@[simp] theorem State.setRegs_depth (s : State) (v : Vector Byte 16) : (s.setRegs v).depth = s.depth := rfl
@[simp] theorem State.setRegs_dt (s : State) (v : Vector Byte 16) : (s.setRegs v).dt = s.dt := rfl
@[simp] theorem State.setRegs_st (s : State) (v : Vector Byte 16) : (s.setRegs v).st = s.st := rfl
@[simp] theorem State.setRegs_mem (s : State) (v : Vector Byte 16) : (s.setRegs v).mem = s.mem := rfl
@[simp] theorem State.setRegs_fb (s : State) (v : Vector Byte 16) : (s.setRegs v).fb = s.fb := rfl
@[simp] theorem State.setRegs_fault (s : State) (v : Vector Byte 16) : (s.setRegs v).fault = s.fault := rfl
@[simp] theorem State.setRegs_params (s : State) (v : Vector Byte 16) : (s.setRegs v).params = s.params := rfl
@[simp] theorem State.setRegs_draws (s : State) (v : Vector Byte 16) : (s.setRegs v).draws = s.draws := rfl
@[simp] theorem State.setRegs_sp (s : State) (v : Vector Byte 16) : (s.setRegs v).sp = s.sp := rfl
@[simp] theorem State.setRegs_pixel (s : State) (v : Vector Byte 16) (px : Fin 64) (py : Fin 32) :
    (s.setRegs v).pixel px py = s.pixel px py := rfl

/-! ### setStack -/

@[simp] theorem State.setStack_v (s : State) (k : Vector Word 16) (d : Fin 17) : (s.setStack k d).v = s.v := rfl
@[simp] theorem State.setStack_iReg (s : State) (k : Vector Word 16) (d : Fin 17) : (s.setStack k d).iReg = s.iReg := rfl
@[simp] theorem State.setStack_pc (s : State) (k : Vector Word 16) (d : Fin 17) : (s.setStack k d).pc = s.pc := rfl
@[simp] theorem State.setStack_stack (s : State) (k : Vector Word 16) (d : Fin 17) : (s.setStack k d).stack = k := rfl
@[simp] theorem State.setStack_depth (s : State) (k : Vector Word 16) (d : Fin 17) : (s.setStack k d).depth = d := rfl
@[simp] theorem State.setStack_dt (s : State) (k : Vector Word 16) (d : Fin 17) : (s.setStack k d).dt = s.dt := rfl
@[simp] theorem State.setStack_st (s : State) (k : Vector Word 16) (d : Fin 17) : (s.setStack k d).st = s.st := rfl
@[simp] theorem State.setStack_mem (s : State) (k : Vector Word 16) (d : Fin 17) : (s.setStack k d).mem = s.mem := rfl
@[simp] theorem State.setStack_fb (s : State) (k : Vector Word 16) (d : Fin 17) : (s.setStack k d).fb = s.fb := rfl
@[simp] theorem State.setStack_fault (s : State) (k : Vector Word 16) (d : Fin 17) : (s.setStack k d).fault = s.fault := rfl
@[simp] theorem State.setStack_params (s : State) (k : Vector Word 16) (d : Fin 17) : (s.setStack k d).params = s.params := rfl
@[simp] theorem State.setStack_draws (s : State) (k : Vector Word 16) (d : Fin 17) : (s.setStack k d).draws = s.draws := rfl
@[simp] theorem State.setStack_reg (s : State) (k : Vector Word 16) (d : Fin 17) (r : RegIdx) : (s.setStack k d).reg r = s.reg r := rfl
@[simp] theorem State.setStack_pixel (s : State) (k : Vector Word 16) (d : Fin 17) (px : Fin 64) (py : Fin 32) :
    (s.setStack k d).pixel px py = s.pixel px py := rfl

/-! ### setDt -/

@[simp] theorem State.setDt_v (s : State) (b : Byte) : (s.setDt b).v = s.v := rfl
@[simp] theorem State.setDt_iReg (s : State) (b : Byte) : (s.setDt b).iReg = s.iReg := rfl
@[simp] theorem State.setDt_pc (s : State) (b : Byte) : (s.setDt b).pc = s.pc := rfl
@[simp] theorem State.setDt_stack (s : State) (b : Byte) : (s.setDt b).stack = s.stack := rfl
@[simp] theorem State.setDt_depth (s : State) (b : Byte) : (s.setDt b).depth = s.depth := rfl
@[simp] theorem State.setDt_dt (s : State) (b : Byte) : (s.setDt b).dt = b := rfl
@[simp] theorem State.setDt_st (s : State) (b : Byte) : (s.setDt b).st = s.st := rfl
@[simp] theorem State.setDt_mem (s : State) (b : Byte) : (s.setDt b).mem = s.mem := rfl
@[simp] theorem State.setDt_fb (s : State) (b : Byte) : (s.setDt b).fb = s.fb := rfl
@[simp] theorem State.setDt_fault (s : State) (b : Byte) : (s.setDt b).fault = s.fault := rfl
@[simp] theorem State.setDt_params (s : State) (b : Byte) : (s.setDt b).params = s.params := rfl
@[simp] theorem State.setDt_draws (s : State) (b : Byte) : (s.setDt b).draws = s.draws := rfl
@[simp] theorem State.setDt_reg (s : State) (b : Byte) (r : RegIdx) : (s.setDt b).reg r = s.reg r := rfl
@[simp] theorem State.setDt_sp (s : State) (b : Byte) : (s.setDt b).sp = s.sp := rfl
@[simp] theorem State.setDt_pixel (s : State) (b : Byte) (px : Fin 64) (py : Fin 32) :
    (s.setDt b).pixel px py = s.pixel px py := rfl

/-! ### setSt -/

@[simp] theorem State.setSt_v (s : State) (b : Byte) : (s.setSt b).v = s.v := rfl
@[simp] theorem State.setSt_iReg (s : State) (b : Byte) : (s.setSt b).iReg = s.iReg := rfl
@[simp] theorem State.setSt_pc (s : State) (b : Byte) : (s.setSt b).pc = s.pc := rfl
@[simp] theorem State.setSt_stack (s : State) (b : Byte) : (s.setSt b).stack = s.stack := rfl
@[simp] theorem State.setSt_depth (s : State) (b : Byte) : (s.setSt b).depth = s.depth := rfl
@[simp] theorem State.setSt_dt (s : State) (b : Byte) : (s.setSt b).dt = s.dt := rfl
@[simp] theorem State.setSt_st (s : State) (b : Byte) : (s.setSt b).st = b := rfl
@[simp] theorem State.setSt_mem (s : State) (b : Byte) : (s.setSt b).mem = s.mem := rfl
@[simp] theorem State.setSt_fb (s : State) (b : Byte) : (s.setSt b).fb = s.fb := rfl
@[simp] theorem State.setSt_fault (s : State) (b : Byte) : (s.setSt b).fault = s.fault := rfl
@[simp] theorem State.setSt_params (s : State) (b : Byte) : (s.setSt b).params = s.params := rfl
@[simp] theorem State.setSt_draws (s : State) (b : Byte) : (s.setSt b).draws = s.draws := rfl
@[simp] theorem State.setSt_reg (s : State) (b : Byte) (r : RegIdx) : (s.setSt b).reg r = s.reg r := rfl
@[simp] theorem State.setSt_sp (s : State) (b : Byte) : (s.setSt b).sp = s.sp := rfl
@[simp] theorem State.setSt_pixel (s : State) (b : Byte) (px : Fin 64) (py : Fin 32) :
    (s.setSt b).pixel px py = s.pixel px py := rfl

/-! ### setMem -/

@[simp] theorem State.setMem_v (s : State) (m : Memory) : (s.setMem m).v = s.v := rfl
@[simp] theorem State.setMem_iReg (s : State) (m : Memory) : (s.setMem m).iReg = s.iReg := rfl
@[simp] theorem State.setMem_pc (s : State) (m : Memory) : (s.setMem m).pc = s.pc := rfl
@[simp] theorem State.setMem_stack (s : State) (m : Memory) : (s.setMem m).stack = s.stack := rfl
@[simp] theorem State.setMem_depth (s : State) (m : Memory) : (s.setMem m).depth = s.depth := rfl
@[simp] theorem State.setMem_dt (s : State) (m : Memory) : (s.setMem m).dt = s.dt := rfl
@[simp] theorem State.setMem_st (s : State) (m : Memory) : (s.setMem m).st = s.st := rfl
@[simp] theorem State.setMem_mem (s : State) (m : Memory) : (s.setMem m).mem = m := rfl
@[simp] theorem State.setMem_fb (s : State) (m : Memory) : (s.setMem m).fb = s.fb := rfl
@[simp] theorem State.setMem_fault (s : State) (m : Memory) : (s.setMem m).fault = s.fault := rfl
@[simp] theorem State.setMem_params (s : State) (m : Memory) : (s.setMem m).params = s.params := rfl
@[simp] theorem State.setMem_draws (s : State) (m : Memory) : (s.setMem m).draws = s.draws := rfl
@[simp] theorem State.setMem_reg (s : State) (m : Memory) (r : RegIdx) : (s.setMem m).reg r = s.reg r := rfl
@[simp] theorem State.setMem_sp (s : State) (m : Memory) : (s.setMem m).sp = s.sp := rfl
@[simp] theorem State.setMem_pixel (s : State) (m : Memory) (px : Fin 64) (py : Fin 32) :
    (s.setMem m).pixel px py = s.pixel px py := rfl

/-! ### setFb -/

@[simp] theorem State.setFb_v (s : State) (f : Framebuffer) : (s.setFb f).v = s.v := rfl
@[simp] theorem State.setFb_iReg (s : State) (f : Framebuffer) : (s.setFb f).iReg = s.iReg := rfl
@[simp] theorem State.setFb_pc (s : State) (f : Framebuffer) : (s.setFb f).pc = s.pc := rfl
@[simp] theorem State.setFb_stack (s : State) (f : Framebuffer) : (s.setFb f).stack = s.stack := rfl
@[simp] theorem State.setFb_depth (s : State) (f : Framebuffer) : (s.setFb f).depth = s.depth := rfl
@[simp] theorem State.setFb_dt (s : State) (f : Framebuffer) : (s.setFb f).dt = s.dt := rfl
@[simp] theorem State.setFb_st (s : State) (f : Framebuffer) : (s.setFb f).st = s.st := rfl
@[simp] theorem State.setFb_mem (s : State) (f : Framebuffer) : (s.setFb f).mem = s.mem := rfl
@[simp] theorem State.setFb_fb (s : State) (f : Framebuffer) : (s.setFb f).fb = f := rfl
@[simp] theorem State.setFb_fault (s : State) (f : Framebuffer) : (s.setFb f).fault = s.fault := rfl
@[simp] theorem State.setFb_params (s : State) (f : Framebuffer) : (s.setFb f).params = s.params := rfl
@[simp] theorem State.setFb_draws (s : State) (f : Framebuffer) : (s.setFb f).draws = s.draws := rfl
@[simp] theorem State.setFb_reg (s : State) (f : Framebuffer) (r : RegIdx) : (s.setFb f).reg r = s.reg r := rfl
@[simp] theorem State.setFb_sp (s : State) (f : Framebuffer) : (s.setFb f).sp = s.sp := rfl

/-! ### setFault -/

@[simp] theorem State.setFault_v (s : State) (f : Option FaultRecord) : (s.setFault f).v = s.v := rfl
@[simp] theorem State.setFault_iReg (s : State) (f : Option FaultRecord) : (s.setFault f).iReg = s.iReg := rfl
@[simp] theorem State.setFault_pc (s : State) (f : Option FaultRecord) : (s.setFault f).pc = s.pc := rfl
@[simp] theorem State.setFault_stack (s : State) (f : Option FaultRecord) : (s.setFault f).stack = s.stack := rfl
@[simp] theorem State.setFault_depth (s : State) (f : Option FaultRecord) : (s.setFault f).depth = s.depth := rfl
@[simp] theorem State.setFault_dt (s : State) (f : Option FaultRecord) : (s.setFault f).dt = s.dt := rfl
@[simp] theorem State.setFault_st (s : State) (f : Option FaultRecord) : (s.setFault f).st = s.st := rfl
@[simp] theorem State.setFault_mem (s : State) (f : Option FaultRecord) : (s.setFault f).mem = s.mem := rfl
@[simp] theorem State.setFault_fb (s : State) (f : Option FaultRecord) : (s.setFault f).fb = s.fb := rfl
@[simp] theorem State.setFault_fault (s : State) (f : Option FaultRecord) : (s.setFault f).fault = f := rfl
@[simp] theorem State.setFault_params (s : State) (f : Option FaultRecord) : (s.setFault f).params = s.params := rfl
@[simp] theorem State.setFault_draws (s : State) (f : Option FaultRecord) : (s.setFault f).draws = s.draws := rfl
@[simp] theorem State.setFault_reg (s : State) (f : Option FaultRecord) (r : RegIdx) : (s.setFault f).reg r = s.reg r := rfl
@[simp] theorem State.setFault_sp (s : State) (f : Option FaultRecord) : (s.setFault f).sp = s.sp := rfl
@[simp] theorem State.setFault_pixel (s : State) (f : Option FaultRecord) (px : Fin 64) (py : Fin 32) :
    (s.setFault f).pixel px py = s.pixel px py := rfl

/-! ### setDraws -/

@[simp] theorem State.setDraws_v (s : State) (k : Nat) : (s.setDraws k).v = s.v := rfl
@[simp] theorem State.setDraws_iReg (s : State) (k : Nat) : (s.setDraws k).iReg = s.iReg := rfl
@[simp] theorem State.setDraws_pc (s : State) (k : Nat) : (s.setDraws k).pc = s.pc := rfl
@[simp] theorem State.setDraws_stack (s : State) (k : Nat) : (s.setDraws k).stack = s.stack := rfl
@[simp] theorem State.setDraws_depth (s : State) (k : Nat) : (s.setDraws k).depth = s.depth := rfl
@[simp] theorem State.setDraws_dt (s : State) (k : Nat) : (s.setDraws k).dt = s.dt := rfl
@[simp] theorem State.setDraws_st (s : State) (k : Nat) : (s.setDraws k).st = s.st := rfl
@[simp] theorem State.setDraws_mem (s : State) (k : Nat) : (s.setDraws k).mem = s.mem := rfl
@[simp] theorem State.setDraws_fb (s : State) (k : Nat) : (s.setDraws k).fb = s.fb := rfl
@[simp] theorem State.setDraws_fault (s : State) (k : Nat) : (s.setDraws k).fault = s.fault := rfl
@[simp] theorem State.setDraws_params (s : State) (k : Nat) : (s.setDraws k).params = s.params := rfl
@[simp] theorem State.setDraws_draws (s : State) (k : Nat) : (s.setDraws k).draws = k := rfl
@[simp] theorem State.setDraws_reg (s : State) (k : Nat) (r : RegIdx) : (s.setDraws k).reg r = s.reg r := rfl
@[simp] theorem State.setDraws_sp (s : State) (k : Nat) : (s.setDraws k).sp = s.sp := rfl
@[simp] theorem State.setDraws_pixel (s : State) (k : Nat) (px : Fin 64) (py : Fin 32) :
    (s.setDraws k).pixel px py = s.pixel px py := rfl

/-! ### setReg -/

@[simp] theorem State.setReg_iReg (s : State) (r : RegIdx) (b : Byte) : (s.setReg r b).iReg = s.iReg := rfl
@[simp] theorem State.setReg_pc (s : State) (r : RegIdx) (b : Byte) : (s.setReg r b).pc = s.pc := rfl
@[simp] theorem State.setReg_stack (s : State) (r : RegIdx) (b : Byte) : (s.setReg r b).stack = s.stack := rfl
@[simp] theorem State.setReg_depth (s : State) (r : RegIdx) (b : Byte) : (s.setReg r b).depth = s.depth := rfl
@[simp] theorem State.setReg_dt (s : State) (r : RegIdx) (b : Byte) : (s.setReg r b).dt = s.dt := rfl
@[simp] theorem State.setReg_st (s : State) (r : RegIdx) (b : Byte) : (s.setReg r b).st = s.st := rfl
@[simp] theorem State.setReg_mem (s : State) (r : RegIdx) (b : Byte) : (s.setReg r b).mem = s.mem := rfl
@[simp] theorem State.setReg_fb (s : State) (r : RegIdx) (b : Byte) : (s.setReg r b).fb = s.fb := rfl
@[simp] theorem State.setReg_fault (s : State) (r : RegIdx) (b : Byte) : (s.setReg r b).fault = s.fault := rfl
@[simp] theorem State.setReg_params (s : State) (r : RegIdx) (b : Byte) : (s.setReg r b).params = s.params := rfl
@[simp] theorem State.setReg_draws (s : State) (r : RegIdx) (b : Byte) : (s.setReg r b).draws = s.draws := rfl
@[simp] theorem State.setReg_sp (s : State) (r : RegIdx) (b : Byte) : (s.setReg r b).sp = s.sp := rfl
@[simp] theorem State.setReg_pixel (s : State) (r : RegIdx) (b : Byte) (px : Fin 64) (py : Fin 32) :
    (s.setReg r b).pixel px py = s.pixel px py := rfl

/-- Reading a register after writing one. -/
theorem State.reg_setReg (s : State) (r q : RegIdx) (b : Byte) :
    (s.setReg r b).reg q = if q = r then b else s.reg q := by
  simp only [State.reg, State.setReg, State.setRegs_v, Fin.getElem_fin, Vector.getElem_set, Fin.ext_iff,
    eq_comm (a := r.val)]

@[simp] theorem State.reg_setReg_self (s : State) (r : RegIdx) (b : Byte) : (s.setReg r b).reg r = b := by
  rw [State.reg_setReg, if_pos rfl]

@[simp] theorem State.reg_setReg_of_ne (s : State) (r q : RegIdx) (b : Byte) (h : q ≠ r) :
    (s.setReg r b).reg q = s.reg q := by
  rw [State.reg_setReg, if_neg h]

/-! ### aluFlag -/

@[simp] theorem State.aluFlag_iReg (s : State) (c : Bool) : (s.aluFlag c).iReg = s.iReg := by
  unfold State.aluFlag; split <;> rfl
@[simp] theorem State.aluFlag_pc (s : State) (c : Bool) : (s.aluFlag c).pc = s.pc := by
  unfold State.aluFlag; split <;> rfl
@[simp] theorem State.aluFlag_stack (s : State) (c : Bool) : (s.aluFlag c).stack = s.stack := by
  unfold State.aluFlag; split <;> rfl
@[simp] theorem State.aluFlag_depth (s : State) (c : Bool) : (s.aluFlag c).depth = s.depth := by
  unfold State.aluFlag; split <;> rfl
@[simp] theorem State.aluFlag_dt (s : State) (c : Bool) : (s.aluFlag c).dt = s.dt := by
  unfold State.aluFlag; split <;> rfl
@[simp] theorem State.aluFlag_st (s : State) (c : Bool) : (s.aluFlag c).st = s.st := by
  unfold State.aluFlag; split <;> rfl
@[simp] theorem State.aluFlag_mem (s : State) (c : Bool) : (s.aluFlag c).mem = s.mem := by
  unfold State.aluFlag; split <;> rfl
@[simp] theorem State.aluFlag_fb (s : State) (c : Bool) : (s.aluFlag c).fb = s.fb := by
  unfold State.aluFlag; split <;> rfl
@[simp] theorem State.aluFlag_fault (s : State) (c : Bool) : (s.aluFlag c).fault = s.fault := by
  unfold State.aluFlag; split <;> rfl
@[simp] theorem State.aluFlag_params (s : State) (c : Bool) : (s.aluFlag c).params = s.params := by
  unfold State.aluFlag; split <;> rfl
@[simp] theorem State.aluFlag_draws (s : State) (c : Bool) : (s.aluFlag c).draws = s.draws := by
  unfold State.aluFlag; split <;> rfl
@[simp] theorem State.aluFlag_sp (s : State) (c : Bool) : (s.aluFlag c).sp = s.sp := by
  unfold State.aluFlag; split <;> rfl
@[simp] theorem State.aluFlag_pixel (s : State) (c : Bool) (px : Fin 64) (py : Fin 32) :
    (s.aluFlag c).pixel px py = s.pixel px py := by
  unfold State.aluFlag; split <;> rfl

/-- Everything the result and flag write of an ALU instruction does to a register (R83). -/
theorem State.reg_aluResult (s : State) (x q : RegIdx) (b : Byte) (c : Bool) :
    (s.aluResult x b c).reg q =
      if q = regVF ∧ s.params.aluSetsVf = true then flagByte c else if q = x then b else s.reg q := by
  unfold State.aluResult State.aluFlag
  rw [State.setReg_params]
  by_cases hf : s.params.aluSetsVf = true
  · rw [if_pos hf, State.setVF, State.reg_setReg, State.reg_setReg]
    by_cases hq : q = regVF <;> simp [hq, hf]
  · rw [if_neg hf, State.reg_setReg]
    simp [hf]

end Sys2Proof.Machine
end

