-- ==== Sys2Proof/Laws/Ops.lean ====
section
/-! SUPPORT. What each shared operation does, once: memory, stack, fetch, framebuffer, the step. -/

namespace Sys2Proof.Machine

/-! ## Bounds -/

theorem inBounds_iff (a n : Nat) : inBounds a n = true ↔ n = 0 ∨ a + n - 1 ≤ 0xFFF := by
  rw [inBounds, decide_eq_true_iff, Config.memSize]
  omega

/-- An access inside memory commits (R32, R100, R108). -/
theorem checkedAccess_of_le {i : Instr} {n : Nat} {s t : State} (h : n = 0 ∨ s.iReg.toNat + n - 1 ≤ 0xFFF) :
    checkedAccess i n s t = .next t.advance :=
  if_pos ((inBounds_iff _ _).2 h)

/-- An access past memory raises IndexOutOfBounds (R32, R100, R108). -/
theorem checkedAccess_of_gt {i : Instr} {n : Nat} {s t : State} (hn : 0 < n)
    (h : 0xFFF < s.iReg.toNat + n - 1) : checkedAccess i n s t = raiseIn i .indexOutOfBounds s :=
  if_neg fun hb => by
    have := (inBounds_iff (dataAddress s) n).1 hb
    unfold dataAddress at this
    omega

/-- Everything a checked access can answer. -/
theorem checkedAccess_cases (i : Instr) (n : Nat) (s t : State) :
    ((n = 0 ∨ s.iReg.toNat + n - 1 ≤ 0xFFF) ∧ checkedAccess i n s t = .next t.advance) ∨
      (0 < n ∧ 0xFFF < s.iReg.toNat + n - 1 ∧
        checkedAccess i n s t = .next (s.raise .indexOutOfBounds (some (encode i)))) := by
  by_cases h : n = 0 ∨ s.iReg.toNat + n - 1 ≤ 0xFFF
  · exact .inl ⟨h, checkedAccess_of_le h⟩
  · exact .inr ⟨by omega, by omega, checkedAccess_of_gt (by omega) (by omega)⟩

/-! ## Memory -/

@[simp] theorem Memory.read_nil (a : Nat) : Memory.read [] a = unlistedByte := rfl

theorem Memory.read_consCell (c : Nat) (b : Byte) (m : Memory) (a : Nat) :
    Memory.read ((c, b) :: m) a = if a = c then b else Memory.read m a := rfl

/-- Below every listed address, memory reads as unlisted. -/
theorem Memory.read_of_lt (m : Memory) (a : Nat) (h : ∀ c ∈ m, a < c.1) :
    Memory.read m a = unlistedByte := by
  induction m with
  | nil => rfl
  | cons c m ih =>
    have hc := h c (List.mem_cons_self ..)
    rw [show c = (c.1, c.2) from rfl, Memory.read_consCell, if_neg (by omega)]
    exact ih fun d hd => h d (List.mem_cons_of_mem _ hd)

theorem Memory.read_cons (a : Nat) (b : Byte) (m : Memory) (q : Nat) (h : ∀ c ∈ m, a < c.1) :
    Memory.read (Memory.cons a b m) q = if q = a then b else Memory.read m q := by
  unfold Memory.cons
  split
  · rename_i hb
    split
    · rename_i hq; rw [hq, hb]; exact Memory.read_of_lt m a h
    · rfl
  · exact Memory.read_consCell a b m q

/-- The rising-address half of the canonical form, which reads and writes rest on. -/
abbrev Memory.rising (m : Memory) : Prop := m.Pairwise (fun c d => c.1 < d.1)

theorem Memory.mem_cons_cell {a : Nat} {b : Byte} {m : Memory} {c : Host.Cell}
    (h : c ∈ Memory.cons a b m) : c ∈ m ∨ (c = (a, b) ∧ b ≠ unlistedByte) := by
  unfold Memory.cons at h
  split at h
  · exact .inl h
  · rcases List.mem_cons.1 h with h | h
    · exact .inr ⟨h, ‹_›⟩
    · exact .inl h

/-- Every cell after a write is an old one or the written one. -/
theorem Memory.mem_write {m : Memory} {a : Nat} {b : Byte} {c : Host.Cell}
    (h : c ∈ Memory.write m a b) : c ∈ m ∨ (c = (a, b) ∧ b ≠ unlistedByte) := by
  induction m with
  | nil => exact Memory.mem_cons_cell h
  | cons d m ih =>
    obtain ⟨e, v⟩ := d
    unfold Memory.write at h
    split at h
    · exact Memory.mem_cons_cell h
    · split at h
      · rcases Memory.mem_cons_cell h with h | h
        · exact .inl (List.mem_cons_of_mem _ h)
        · exact .inr h
      · rcases List.mem_cons.1 h with h | h
        · exact .inl (h ▸ List.mem_cons_self ..)
        · rcases ih h with h | h
          · exact .inl (List.mem_cons_of_mem _ h)
          · exact .inr h

theorem Memory.rising_cons {a : Nat} {b : Byte} {m : Memory} (hm : m.rising)
    (h : ∀ c ∈ m, a < c.1) : (Memory.cons a b m).rising := by
  unfold Memory.cons
  split
  · exact hm
  · exact List.pairwise_cons.2 ⟨h, hm⟩

theorem Memory.rising_write {m : Memory} (a : Nat) (b : Byte) (hm : m.rising) :
    (Memory.write m a b).rising := by
  induction m with
  | nil => exact Memory.rising_cons hm (by simp)
  | cons d m ih =>
    obtain ⟨e, v⟩ := d
    have hd := List.pairwise_cons.1 hm
    unfold Memory.write
    split
    · refine Memory.rising_cons hm fun c hc => ?_
      rcases List.mem_cons.1 hc with hc | hc
      · rw [hc]; assumption
      · exact Nat.lt_trans ‹_› (hd.1 c hc)
    · split
      · rename_i h; subst h
        exact Memory.rising_cons hd.2 hd.1
      · refine List.pairwise_cons.2 ⟨fun c hc => ?_, ih hd.2⟩
        rcases Memory.mem_write hc with hc | hc
        · exact hd.1 c hc
        · rw [hc.1]
          exact Nat.lt_of_le_of_ne (Nat.le_of_not_lt ‹_›) (Ne.symm ‹_›)

/-- Reading after writing, on memory with rising addresses. -/
theorem Memory.read_write {m : Memory} (a q : Nat) (b : Byte) (hm : m.rising) :
    Memory.read (Memory.write m a b) q = if q = a then b else Memory.read m q := by
  induction m with
  | nil => exact Memory.read_cons a b [] q (by simp)
  | cons d m ih =>
    obtain ⟨e, v⟩ := d
    have hd := List.pairwise_cons.1 hm
    unfold Memory.write
    split
    · refine Memory.read_cons a b _ q fun c hc => ?_
      rcases List.mem_cons.1 hc with hc | hc
      · rw [hc]; assumption
      · exact Nat.lt_trans ‹_› (hd.1 c hc)
    · split
      · rename_i h; subst h
        rw [Memory.read_cons a b m q hd.1, Memory.read_consCell]
        split <;> rfl
      · rw [Memory.read_consCell, ih hd.2, Memory.read_consCell]
        by_cases hq : q = e
        · subst hq; rw [if_pos rfl, if_pos rfl, if_neg (fun h => ‹¬a = q› h.symm)]
        · rw [if_neg hq, if_neg hq]

/-- A write inside memory keeps the canonical form. -/
theorem Memory.wf_write {m : Memory} (a : Nat) (b : Byte) (hm : Memory.wf m) (ha : a < Config.memSize) :
    Memory.wf (Memory.write m a b) := by
  refine ⟨Memory.rising_write a b hm.1, fun c hc => ?_⟩
  rcases Memory.mem_write hc with hc | ⟨hc, hb⟩
  · exact hm.2 c hc
  · rw [hc]; exact ⟨ha, hb⟩

/-- Writing bytes inside memory keeps the canonical form. -/
theorem Memory.wf_writeBytes {m : Memory} (a : Nat) (bs : List Byte) (hm : Memory.wf m)
    (h : a + bs.length ≤ Config.memSize) : Memory.wf (Memory.writeBytes m a bs) := by
  induction bs generalizing m a with
  | nil => exact hm
  | cons b bs ih =>
    have hl : (b :: bs).length = bs.length + 1 := rfl
    exact ih (a + 1) (Memory.wf_write a b hm (by omega)) (by omega)

theorem Memory.rising_writeBytes {m : Memory} (a : Nat) (bs : List Byte) (hm : m.rising) :
    (Memory.writeBytes m a bs).rising := by
  induction bs generalizing m a with
  | nil => exact hm
  | cons b bs ih => exact ih (a + 1) (Memory.rising_write a b hm)

/-- Reading after writing bytes: the written byte inside, as before outside. -/
theorem Memory.read_writeBytes {m : Memory} (a q : Nat) (bs : List Byte) (hm : m.rising) :
    Memory.read (Memory.writeBytes m a bs) q =
      if h : a ≤ q ∧ q - a < bs.length then bs[q - a]'h.2 else Memory.read m q := by
  induction bs generalizing m a with
  | nil => simp [Memory.writeBytes]
  | cons b bs ih =>
    rw [Memory.writeBytes, ih (a + 1) (Memory.rising_write a b hm), Memory.read_write a q b hm]
    by_cases hq : q = a
    · subst hq; simp
    · by_cases h1 : a + 1 ≤ q ∧ q - (a + 1) < bs.length
      · have h2 : a ≤ q ∧ q - a < (b :: bs).length := by simp only [List.length_cons]; omega
        rw [dif_pos h1, dif_pos h2]
        have h3 : q - a = (q - (a + 1)) + 1 := by omega
        simp only [h3, List.getElem_cons_succ]
      · have h2 : ¬(a ≤ q ∧ q - a < (b :: bs).length) := by simp only [List.length_cons]; omega
        rw [dif_neg h1, dif_neg h2, if_neg hq]

@[simp] theorem Memory.length_readBytes (m : Memory) (a n : Nat) :
    (Memory.readBytes m a n).length = n := by
  induction n generalizing a with
  | zero => rfl
  | succ n ih => simp [Memory.readBytes, ih]

theorem Memory.getElem_readBytes (m : Memory) (a n k : Nat) (h : k < (Memory.readBytes m a n).length) :
    (Memory.readBytes m a n)[k] = Memory.read m (a + k) := by
  induction n generalizing a k with
  | zero => simp at h
  | succ n ih =>
    cases k with
    | zero => rfl
    | succ k =>
      have := ih (a + 1) k (by simpa using h)
      simp only [Memory.readBytes, List.getElem_cons_succ, this]
      congr 1; omega

theorem Memory.reset_wf : Memory.wf State.reset.mem := by decide

/-! ## The stack -/

/-- `push` answers exactly when the stack is not full, and writes the next slot. -/
theorem State.push_of_lt (s : State) (a : Word) (h : s.depth.val < 16) :
    s.push a = some (s.setStack (s.stack.set s.depth.val a) ⟨s.depth.val + 1, by omega⟩) := dif_pos h

theorem State.push_of_full (s : State) (a : Word) (h : ¬s.depth.val < 16) : s.push a = none := dif_neg h

/-- `pop` answers exactly when the stack is not empty, and leaves the slots alone. -/
theorem State.pop_of_pos (s : State) (h : 0 < s.depth.val) :
    s.pop = some (s.stack[s.depth.val - 1], s.setStack s.stack ⟨s.depth.val - 1, by omega⟩) := dif_pos h

theorem State.pop_of_empty (s : State) (h : ¬0 < s.depth.val) : s.pop = none := dif_neg h

/-! ## Fetch and targets -/

/-- The fetch, in the rule's own terms (R65). -/
theorem fetch_eq (s : State) :
    fetch s =
      if s.pc.toNat + 1 ≤ 0xFFF then
        some (joinBytes (Memory.read s.mem s.pc.toNat) (Memory.read s.mem (s.pc.toNat + 1)))
      else none := by
  unfold fetch
  by_cases h : s.pc.toNat + 1 ≤ 0xFFF
  · rw [if_pos h, if_pos ((inBounds_iff _ _).2 (by omega))]
  · rw [if_neg h, if_neg (fun hb => h (by have := (inBounds_iff _ _).1 hb; omega))]

@[simp] theorem targetOf_toNat (nnn : Addr12) : (targetOf nnn).toNat = nnn.toNat := by
  have := nnn.isLt
  rw [targetOf, BitVec.toNat_setWidth]
  omega

/-! ## The framebuffer -/

/-- Reading a pixel after writing one. -/
theorem Framebuffer.getElem_set (f : Framebuffer) (px qx : Fin 64) (py qy : Fin 32) (b : Bool) :
    (Framebuffer.set f px py b)[qy][qx] = if qx = px ∧ qy = py then b else f[qy][qx] := by
  obtain ⟨qy, hqy⟩ := qy
  obtain ⟨qx, hqx⟩ := qx
  show (Vector.set f py.val (Vector.set f[py] px.val b))[qy][qx] = _
  by_cases hy : py.val = qy
  · subst hy
    by_cases hx : px.val = qx
    · subst hx; simp
    · simp [hx, Fin.ext_iff, eq_comm (a := qx)]
  · simp [hy, Fin.ext_iff, eq_comm (a := qy)]

/-- The XOR pixel writer (R104): the pixel it turns, what the others keep, and what it reports. -/
theorem xorPixel_read (f : Framebuffer) (px qx : Fin 64) (py qy : Fin 32) (b : Bool) :
    (xorPixel f px py b).1[qy][qx] = if qx = px ∧ qy = py then f[py][px] ^^ b else f[qy][qx] :=
  Framebuffer.getElem_set f px qx py qy _

theorem xorPixel_erased (f : Framebuffer) (px : Fin 64) (py : Fin 32) (b : Bool) :
    (xorPixel f px py b).2 = true ↔ f[py][px] = true ∧ b = true := Bool.and_eq_true_iff

/-! ## The bulk transfer -/

theorem length_regsUpTo (x : RegIdx) : (regsUpTo x).length = x.val + 1 := by
  simp only [regsUpTo, List.length_take, List.length_finRange]
  omega

/-- The k-th register of a bulk transfer is Vk. -/
theorem getElem_regsUpTo (x : RegIdx) (k : Nat) (h : k < (regsUpTo x).length) :
    ((regsUpTo x)[k]).val = k := by
  simp [regsUpTo]

theorem mem_regsUpTo (x r : RegIdx) : r ∈ regsUpTo x ↔ r ≤ x := by
  simp only [regsUpTo, List.mem_take_iff_getElem, List.getElem_finRange, List.length_finRange]
  constructor
  · rintro ⟨k, hk, rfl⟩
    simp only [Fin.le_def]
    show k ≤ x.val
    omega
  · intro h
    exact ⟨r.val, by simp only [Fin.le_def] at h; omega, by ext; rfl⟩

/-- Loading a list of registers writes each with its byte and leaves the others alone. -/
theorem getElem_loadRegs (m : Memory) (a : Nat) (rs : List RegIdx) (v : Vector Byte 16) (q : RegIdx) :
    (loadRegs m a rs v)[q] = if q ∈ rs then Memory.read m (a + q.val) else v[q] := by
  induction rs generalizing v with
  | nil => simp [loadRegs]
  | cons r rs ih =>
    rw [loadRegs, ih]
    by_cases hq : q ∈ rs
    · simp [hq]
    · by_cases hr : q = r
      · subst hr; simp [hq]
      · have hr' : ¬r.val = q.val := fun h => hr (Fin.ext h.symm)
        simp [hq, hr, hr']

/-! ## The step -/

/-- Everything a step that answers a next state can be (R64, R123). -/
theorem step_cases {s t : State} (h : step s = .next t) :
    s.fault = none ∧
      ((fetch s = none ∧ t = s.raise .indexOutOfBounds none) ∨
        (∃ w e, fetch s = some w ∧ decode w = .error e ∧ t = s.raise .unknownInstruction (some w)) ∨
        (∃ w i, fetch s = some w ∧ decode w = .ok i ∧ exec i s = .next t)) := by
  unfold step at h
  split at h
  · exact absurd h (by simp [refuseStep])
  · refine ⟨‹_›, ?_⟩
    split at h
    · exact .inl ⟨‹_›, by simpa [raiseFetch] using h.symm⟩
    · split at h
      · exact .inr (.inl ⟨_, _, ‹_›, ‹_›, by simpa [raiseDecode] using h.symm⟩)
      · exact .inr (.inr ⟨_, _, ‹_›, ‹_›, h⟩)

end Sys2Proof.Machine
end

