-- ==== Sys2Proof/Laws/PerInstr.lean ====
section
/-! SUPPORT. The statements made per instruction: its argument values fit its format (30_encoding.md R48 to
R50), and its catalog row covers its word and reads it back (R51, R53). -/

namespace Sys2Proof.Laws

/-- The instruction is well-formed. -/
def ArgsFit.Statement (i : Instr) : Prop := i.WellFormed

/-- Some row of the catalog carries the instruction's name and format, covers its word, and builds it back. -/
def CatalogRow.Statement (i : Instr) : Prop :=
  ∃ d ∈ catalog, d.name = i.name ∧ d.form.format = i.format ∧ d.covers (encode i) = true ∧
    d.form.build (encode i) = i

theorem argsFit_cons {k : ArgKind} {ks : List ArgKind} {v : Nat} {vs : List Nat} (h : v < k.limit)
    (hs : argsFit ks vs = true) : argsFit (k :: ks) (v :: vs) = true :=
  Bool.and_eq_true_iff.2 ⟨decide_eq_true h, hs⟩

theorem argsFit_addr (nnn : Addr12) : argsFit [.address] [nnn.toNat] = true := argsFit_cons nnn.isLt rfl

theorem argsFit_xkk (x : RegIdx) (kk : Byte) : argsFit [.register, .byte] [x.val, kk.toNat] = true :=
  argsFit_cons x.isLt (argsFit_cons kk.isLt rfl)

theorem argsFit_xy (x y : RegIdx) : argsFit [.register, .register] [x.val, y.val] = true :=
  argsFit_cons x.isLt (argsFit_cons y.isLt rfl)

theorem argsFit_xyn (x y : RegIdx) (n : Nibble) :
    argsFit [.register, .register, .nibble] [x.val, y.val, n.toNat] = true :=
  argsFit_cons x.isLt (argsFit_cons y.isLt (argsFit_cons n.isLt rfl))

theorem argsFit_x (x : RegIdx) : argsFit [.register] [x.val] = true := argsFit_cons x.isLt rfl

theorem covers_of {name : String} {o : Word} {f : RowForm} {w v : Word} (h : w &&& f.format.mask = v)
    (hv : v = o) : (Descriptor.mk name o f).covers w = true := by
  subst hv
  simp [Descriptor.covers, Descriptor.mask, h]

theorem ArgsFit.clear : ArgsFit.Statement (.clear) := rfl
theorem ArgsFit.ret : ArgsFit.Statement (.ret) := rfl
theorem ArgsFit.jump (nnn : Addr12) : ArgsFit.Statement (.jump nnn) := argsFit_addr nnn
theorem ArgsFit.call (nnn : Addr12) : ArgsFit.Statement (.call nnn) := argsFit_addr nnn
theorem ArgsFit.skipEqual (x : RegIdx) (kk : Byte) : ArgsFit.Statement (.skipEqual x kk) := argsFit_xkk x kk
theorem ArgsFit.skipNotEqual (x : RegIdx) (kk : Byte) : ArgsFit.Statement (.skipNotEqual x kk) := argsFit_xkk x kk
theorem ArgsFit.skipEqualRegister (x y : RegIdx) : ArgsFit.Statement (.skipEqualRegister x y) := argsFit_xy x y
theorem ArgsFit.loadByteToVx (x : RegIdx) (kk : Byte) : ArgsFit.Statement (.loadByteToVx x kk) := argsFit_xkk x kk
theorem ArgsFit.addByteToVx (x : RegIdx) (kk : Byte) : ArgsFit.Statement (.addByteToVx x kk) := argsFit_xkk x kk
theorem ArgsFit.setVxToVy (x y : RegIdx) : ArgsFit.Statement (.setVxToVy x y) := argsFit_xy x y
theorem ArgsFit.orVxVy (x y : RegIdx) : ArgsFit.Statement (.orVxVy x y) := argsFit_xy x y
theorem ArgsFit.andVxVy (x y : RegIdx) : ArgsFit.Statement (.andVxVy x y) := argsFit_xy x y
theorem ArgsFit.xorVxVy (x y : RegIdx) : ArgsFit.Statement (.xorVxVy x y) := argsFit_xy x y
theorem ArgsFit.addVxVy (x y : RegIdx) : ArgsFit.Statement (.addVxVy x y) := argsFit_xy x y
theorem ArgsFit.subVxVy (x y : RegIdx) : ArgsFit.Statement (.subVxVy x y) := argsFit_xy x y
theorem ArgsFit.shrVxVy (x y : RegIdx) : ArgsFit.Statement (.shrVxVy x y) := argsFit_xy x y
theorem ArgsFit.subnVxVy (x y : RegIdx) : ArgsFit.Statement (.subnVxVy x y) := argsFit_xy x y
theorem ArgsFit.shlVxVy (x y : RegIdx) : ArgsFit.Statement (.shlVxVy x y) := argsFit_xy x y
theorem ArgsFit.skipNotEqualRegister (x y : RegIdx) : ArgsFit.Statement (.skipNotEqualRegister x y) := argsFit_xy x y
theorem ArgsFit.loadAddress (nnn : Addr12) : ArgsFit.Statement (.loadAddress nnn) := argsFit_addr nnn
theorem ArgsFit.jumpOffset (nnn : Addr12) : ArgsFit.Statement (.jumpOffset nnn) := argsFit_addr nnn
theorem ArgsFit.random (x : RegIdx) (kk : Byte) : ArgsFit.Statement (.random x kk) := argsFit_xkk x kk
theorem ArgsFit.draw (x y : RegIdx) (n : Nibble) : ArgsFit.Statement (.draw x y n) := argsFit_xyn x y n
theorem ArgsFit.skipKeyPressed (x : RegIdx) : ArgsFit.Statement (.skipKeyPressed x) := argsFit_x x
theorem ArgsFit.skipKeyNotPressed (x : RegIdx) : ArgsFit.Statement (.skipKeyNotPressed x) := argsFit_x x
theorem ArgsFit.readDelayTimer (x : RegIdx) : ArgsFit.Statement (.readDelayTimer x) := argsFit_x x
theorem ArgsFit.waitKeyPress (x : RegIdx) : ArgsFit.Statement (.waitKeyPress x) := argsFit_x x
theorem ArgsFit.setDelayTimer (x : RegIdx) : ArgsFit.Statement (.setDelayTimer x) := argsFit_x x
theorem ArgsFit.setSoundTimer (x : RegIdx) : ArgsFit.Statement (.setSoundTimer x) := argsFit_x x
theorem ArgsFit.addI (x : RegIdx) : ArgsFit.Statement (.addI x) := argsFit_x x
theorem ArgsFit.loadSprite (x : RegIdx) : ArgsFit.Statement (.loadSprite x) := argsFit_x x
theorem ArgsFit.loadBcd (x : RegIdx) : ArgsFit.Statement (.loadBcd x) := argsFit_x x
theorem ArgsFit.storeMemory (x : RegIdx) : ArgsFit.Statement (.storeMemory x) := argsFit_x x
theorem ArgsFit.readMemory (x : RegIdx) : ArgsFit.Statement (.readMemory x) := argsFit_x x

theorem CatalogRow.clear : CatalogRow.Statement (.clear) :=
  ⟨⟨"clear", 0x00E0#16, .none .clear⟩, by simp [catalog, catalogLow, catalogAlu, catalogHigh, catalogF], rfl, rfl,
    rfl, rfl⟩

theorem CatalogRow.ret : CatalogRow.Statement (.ret) :=
  ⟨⟨"return", 0x00EE#16, .none .ret⟩, by simp [catalog, catalogLow, catalogAlu, catalogHigh, catalogF], rfl, rfl,
    rfl, rfl⟩

theorem CatalogRow.jump (nnn : Addr12) : CatalogRow.Statement (.jump nnn) :=
  ⟨⟨"jump", 0x1000#16, .addr .jump⟩, by simp [catalog, catalogLow, catalogAlu, catalogHigh, catalogF], rfl, rfl,
    covers_of (mask_wordAddr 0x1#4 nnn) rfl, by simp [RowForm.build, encode]⟩

theorem CatalogRow.call (nnn : Addr12) : CatalogRow.Statement (.call nnn) :=
  ⟨⟨"call", 0x2000#16, .addr .call⟩, by simp [catalog, catalogLow, catalogAlu, catalogHigh, catalogF], rfl, rfl,
    covers_of (mask_wordAddr 0x2#4 nnn) rfl, by simp [RowForm.build, encode]⟩

theorem CatalogRow.skipEqual (x : RegIdx) (kk : Byte) : CatalogRow.Statement (.skipEqual x kk) :=
  ⟨⟨"skip_equal", 0x3000#16, .xkk .skipEqual⟩, by simp [catalog, catalogLow, catalogAlu, catalogHigh, catalogF], rfl, rfl,
    covers_of (mask_wordXkk 0x3#4 x kk) rfl, by simp [RowForm.build, encode]⟩

theorem CatalogRow.skipNotEqual (x : RegIdx) (kk : Byte) : CatalogRow.Statement (.skipNotEqual x kk) :=
  ⟨⟨"skip_not_equal", 0x4000#16, .xkk .skipNotEqual⟩, by simp [catalog, catalogLow, catalogAlu, catalogHigh, catalogF], rfl, rfl,
    covers_of (mask_wordXkk 0x4#4 x kk) rfl, by simp [RowForm.build, encode]⟩

theorem CatalogRow.skipEqualRegister (x y : RegIdx) : CatalogRow.Statement (.skipEqualRegister x y) :=
  ⟨⟨"skip_equal_register", 0x5000#16, .xy .skipEqualRegister⟩, by simp [catalog, catalogLow, catalogAlu, catalogHigh, catalogF], rfl, rfl,
    covers_of (mask_wordXyf 0x5#4 x y 0x0#4) rfl, by simp [RowForm.build, encode]⟩

theorem CatalogRow.loadByteToVx (x : RegIdx) (kk : Byte) : CatalogRow.Statement (.loadByteToVx x kk) :=
  ⟨⟨"load_byte_to_vx", 0x6000#16, .xkk .loadByteToVx⟩, by simp [catalog, catalogLow, catalogAlu, catalogHigh, catalogF], rfl, rfl,
    covers_of (mask_wordXkk 0x6#4 x kk) rfl, by simp [RowForm.build, encode]⟩

theorem CatalogRow.addByteToVx (x : RegIdx) (kk : Byte) : CatalogRow.Statement (.addByteToVx x kk) :=
  ⟨⟨"add_byte_to_vx", 0x7000#16, .xkk .addByteToVx⟩, by simp [catalog, catalogLow, catalogAlu, catalogHigh, catalogF], rfl, rfl,
    covers_of (mask_wordXkk 0x7#4 x kk) rfl, by simp [RowForm.build, encode]⟩

theorem CatalogRow.setVxToVy (x y : RegIdx) : CatalogRow.Statement (.setVxToVy x y) :=
  ⟨⟨"set_vx_to_vy", 0x8000#16, .xy .setVxToVy⟩, by simp [catalog, catalogLow, catalogAlu, catalogHigh, catalogF], rfl, rfl,
    covers_of (mask_wordXyf 0x8#4 x y 0x0#4) rfl, by simp [RowForm.build, encode]⟩

theorem CatalogRow.orVxVy (x y : RegIdx) : CatalogRow.Statement (.orVxVy x y) :=
  ⟨⟨"or_vx_vy", 0x8001#16, .xy .orVxVy⟩, by simp [catalog, catalogLow, catalogAlu, catalogHigh, catalogF], rfl, rfl,
    covers_of (mask_wordXyf 0x8#4 x y 0x1#4) rfl, by simp [RowForm.build, encode]⟩

theorem CatalogRow.andVxVy (x y : RegIdx) : CatalogRow.Statement (.andVxVy x y) :=
  ⟨⟨"and_vx_vy", 0x8002#16, .xy .andVxVy⟩, by simp [catalog, catalogLow, catalogAlu, catalogHigh, catalogF], rfl, rfl,
    covers_of (mask_wordXyf 0x8#4 x y 0x2#4) rfl, by simp [RowForm.build, encode]⟩

theorem CatalogRow.xorVxVy (x y : RegIdx) : CatalogRow.Statement (.xorVxVy x y) :=
  ⟨⟨"xor_vx_vy", 0x8003#16, .xy .xorVxVy⟩, by simp [catalog, catalogLow, catalogAlu, catalogHigh, catalogF], rfl, rfl,
    covers_of (mask_wordXyf 0x8#4 x y 0x3#4) rfl, by simp [RowForm.build, encode]⟩

theorem CatalogRow.addVxVy (x y : RegIdx) : CatalogRow.Statement (.addVxVy x y) :=
  ⟨⟨"add_vx_vy", 0x8004#16, .xy .addVxVy⟩, by simp [catalog, catalogLow, catalogAlu, catalogHigh, catalogF], rfl, rfl,
    covers_of (mask_wordXyf 0x8#4 x y 0x4#4) rfl, by simp [RowForm.build, encode]⟩

theorem CatalogRow.subVxVy (x y : RegIdx) : CatalogRow.Statement (.subVxVy x y) :=
  ⟨⟨"sub_vx_vy", 0x8005#16, .xy .subVxVy⟩, by simp [catalog, catalogLow, catalogAlu, catalogHigh, catalogF], rfl, rfl,
    covers_of (mask_wordXyf 0x8#4 x y 0x5#4) rfl, by simp [RowForm.build, encode]⟩

theorem CatalogRow.shrVxVy (x y : RegIdx) : CatalogRow.Statement (.shrVxVy x y) :=
  ⟨⟨"shr_vx_vy", 0x8006#16, .xy .shrVxVy⟩, by simp [catalog, catalogLow, catalogAlu, catalogHigh, catalogF], rfl, rfl,
    covers_of (mask_wordXyf 0x8#4 x y 0x6#4) rfl, by simp [RowForm.build, encode]⟩

theorem CatalogRow.subnVxVy (x y : RegIdx) : CatalogRow.Statement (.subnVxVy x y) :=
  ⟨⟨"subn_vx_vy", 0x8007#16, .xy .subnVxVy⟩, by simp [catalog, catalogLow, catalogAlu, catalogHigh, catalogF], rfl, rfl,
    covers_of (mask_wordXyf 0x8#4 x y 0x7#4) rfl, by simp [RowForm.build, encode]⟩

theorem CatalogRow.shlVxVy (x y : RegIdx) : CatalogRow.Statement (.shlVxVy x y) :=
  ⟨⟨"shl_vx_vy", 0x800E#16, .xy .shlVxVy⟩, by simp [catalog, catalogLow, catalogAlu, catalogHigh, catalogF], rfl, rfl,
    covers_of (mask_wordXyf 0x8#4 x y 0xE#4) rfl, by simp [RowForm.build, encode]⟩

theorem CatalogRow.skipNotEqualRegister (x y : RegIdx) : CatalogRow.Statement (.skipNotEqualRegister x y) :=
  ⟨⟨"skip_not_equal_register", 0x9000#16, .xy .skipNotEqualRegister⟩, by simp [catalog, catalogLow, catalogAlu, catalogHigh, catalogF], rfl, rfl,
    covers_of (mask_wordXyf 0x9#4 x y 0x0#4) rfl, by simp [RowForm.build, encode]⟩

theorem CatalogRow.loadAddress (nnn : Addr12) : CatalogRow.Statement (.loadAddress nnn) :=
  ⟨⟨"load_address", 0xA000#16, .addr .loadAddress⟩, by simp [catalog, catalogLow, catalogAlu, catalogHigh, catalogF], rfl, rfl,
    covers_of (mask_wordAddr 0xA#4 nnn) rfl, by simp [RowForm.build, encode]⟩

theorem CatalogRow.jumpOffset (nnn : Addr12) : CatalogRow.Statement (.jumpOffset nnn) :=
  ⟨⟨"jump_offset", 0xB000#16, .addr .jumpOffset⟩, by simp [catalog, catalogLow, catalogAlu, catalogHigh, catalogF], rfl, rfl,
    covers_of (mask_wordAddr 0xB#4 nnn) rfl, by simp [RowForm.build, encode]⟩

theorem CatalogRow.random (x : RegIdx) (kk : Byte) : CatalogRow.Statement (.random x kk) :=
  ⟨⟨"random", 0xC000#16, .xkk .random⟩, by simp [catalog, catalogLow, catalogAlu, catalogHigh, catalogF], rfl, rfl,
    covers_of (mask_wordXkk 0xC#4 x kk) rfl, by simp [RowForm.build, encode]⟩

theorem CatalogRow.draw (x y : RegIdx) (n : Nibble) : CatalogRow.Statement (.draw x y n) :=
  ⟨⟨"draw", 0xD000#16, .xyn .draw⟩, by simp [catalog, catalogLow, catalogAlu, catalogHigh, catalogF], rfl, rfl,
    covers_of (mask_wordXyn 0xD#4 x y n) rfl, by simp [RowForm.build, encode]⟩

theorem CatalogRow.skipKeyPressed (x : RegIdx) : CatalogRow.Statement (.skipKeyPressed x) :=
  ⟨⟨"skip_key_pressed", 0xE09E#16, .x .skipKeyPressed⟩, by simp [catalog, catalogLow, catalogAlu, catalogHigh, catalogF], rfl, rfl,
    covers_of (mask_wordXff 0xE#4 x 0x9E#8) rfl, by simp [RowForm.build, encode]⟩

theorem CatalogRow.skipKeyNotPressed (x : RegIdx) : CatalogRow.Statement (.skipKeyNotPressed x) :=
  ⟨⟨"skip_key_not_pressed", 0xE0A1#16, .x .skipKeyNotPressed⟩, by simp [catalog, catalogLow, catalogAlu, catalogHigh, catalogF], rfl, rfl,
    covers_of (mask_wordXff 0xE#4 x 0xA1#8) rfl, by simp [RowForm.build, encode]⟩

theorem CatalogRow.readDelayTimer (x : RegIdx) : CatalogRow.Statement (.readDelayTimer x) :=
  ⟨⟨"read_delay_timer", 0xF007#16, .x .readDelayTimer⟩, by simp [catalog, catalogLow, catalogAlu, catalogHigh, catalogF], rfl, rfl,
    covers_of (mask_wordXff 0xF#4 x 0x07#8) rfl, by simp [RowForm.build, encode]⟩

theorem CatalogRow.waitKeyPress (x : RegIdx) : CatalogRow.Statement (.waitKeyPress x) :=
  ⟨⟨"wait_key_press", 0xF00A#16, .x .waitKeyPress⟩, by simp [catalog, catalogLow, catalogAlu, catalogHigh, catalogF], rfl, rfl,
    covers_of (mask_wordXff 0xF#4 x 0x0A#8) rfl, by simp [RowForm.build, encode]⟩

theorem CatalogRow.setDelayTimer (x : RegIdx) : CatalogRow.Statement (.setDelayTimer x) :=
  ⟨⟨"set_delay_timer", 0xF015#16, .x .setDelayTimer⟩, by simp [catalog, catalogLow, catalogAlu, catalogHigh, catalogF], rfl, rfl,
    covers_of (mask_wordXff 0xF#4 x 0x15#8) rfl, by simp [RowForm.build, encode]⟩

theorem CatalogRow.setSoundTimer (x : RegIdx) : CatalogRow.Statement (.setSoundTimer x) :=
  ⟨⟨"set_sound_timer", 0xF018#16, .x .setSoundTimer⟩, by simp [catalog, catalogLow, catalogAlu, catalogHigh, catalogF], rfl, rfl,
    covers_of (mask_wordXff 0xF#4 x 0x18#8) rfl, by simp [RowForm.build, encode]⟩

theorem CatalogRow.addI (x : RegIdx) : CatalogRow.Statement (.addI x) :=
  ⟨⟨"add_i", 0xF01E#16, .x .addI⟩, by simp [catalog, catalogLow, catalogAlu, catalogHigh, catalogF], rfl, rfl,
    covers_of (mask_wordXff 0xF#4 x 0x1E#8) rfl, by simp [RowForm.build, encode]⟩

theorem CatalogRow.loadSprite (x : RegIdx) : CatalogRow.Statement (.loadSprite x) :=
  ⟨⟨"load_sprite", 0xF029#16, .x .loadSprite⟩, by simp [catalog, catalogLow, catalogAlu, catalogHigh, catalogF], rfl, rfl,
    covers_of (mask_wordXff 0xF#4 x 0x29#8) rfl, by simp [RowForm.build, encode]⟩

theorem CatalogRow.loadBcd (x : RegIdx) : CatalogRow.Statement (.loadBcd x) :=
  ⟨⟨"load_bcd", 0xF033#16, .x .loadBcd⟩, by simp [catalog, catalogLow, catalogAlu, catalogHigh, catalogF], rfl, rfl,
    covers_of (mask_wordXff 0xF#4 x 0x33#8) rfl, by simp [RowForm.build, encode]⟩

theorem CatalogRow.storeMemory (x : RegIdx) : CatalogRow.Statement (.storeMemory x) :=
  ⟨⟨"store_memory", 0xF055#16, .x .storeMemory⟩, by simp [catalog, catalogLow, catalogAlu, catalogHigh, catalogF], rfl, rfl,
    covers_of (mask_wordXff 0xF#4 x 0x55#8) rfl, by simp [RowForm.build, encode]⟩

theorem CatalogRow.readMemory (x : RegIdx) : CatalogRow.Statement (.readMemory x) :=
  ⟨⟨"read_memory", 0xF065#16, .x .readMemory⟩, by simp [catalog, catalogLow, catalogAlu, catalogHigh, catalogF], rfl, rfl,
    covers_of (mask_wordXff 0xF#4 x 0x65#8) rfl, by simp [RowForm.build, encode]⟩

end Sys2Proof.Laws
end

