-- ==== Sys2Proof/Tests/Slice0.lean ====
section
/-! SUPPORT. Tests of one step each, with expected values from 95_test_vectors.md (the vector's name stands in
each comment) or written out from the encodings of 30_encoding.md R53, and one witness per statement that has
hypotheses. -/

namespace Sys2Proof.Machine.Tests

open Sys2Proof Sys2Proof.Machine

/-! ## Helpers -/

/-- The next state, when there is one. -/
def answer (o : Host.Outcome State Fault Refusal) : Option State :=
  match o with
  | .next t => some t
  | _ => none

/-- One step with the word at PC, and one thing read from the state afterwards. -/
def after {α : Type} (w : Nat) (s : State) (f : State → α) : Option α :=
  (answer (step (s.withFetchWord 16 w))).map f

/-- A start state: the reset state with registers. -/
def withRegs (rs : List (RegIdx × Byte)) : State :=
  rs.foldl (fun s p => s.setReg p.1 p.2) State.reset

/-- A state with bytes in memory at an address, and I pointing there. -/
def withBytes (s : State) (a : Nat) (bs : List Byte) : State :=
  (s.setMem (Memory.writeBytes s.mem a bs)).setI (BitVec.ofNat 16 a)

/-- A state with the other setting of each parameter. -/
def withParams (f : Bool) (src : ShiftSource) (s : State) : State := { s with params := ⟨f, src⟩ }

/-- A state with a stack of the given depth, every slot 0x0206. -/
def withDepth (d : Fin 17) : State := State.reset.setStack (Vector.replicate 16 0x0206#16) d

/-- The record an instruction that raises leaves at the reset value of PC. -/
def record (k : ErrorKind) (w : Word) : Option FaultRecord := some ⟨k, some w, 0x200#16⟩

/-! ## WellFormed -/

/-- The largest value of each kind fits (30_encoding.md R48). -/
theorem test_argsFit_accepts_largest :
    argsFit [.register, .register, .nibble] [15, 15, 15] = true ∧ argsFit [.address] [0xFFF] = true ∧
    argsFit [.register, .byte] [15, 0xFF] = true ∧ argsFit [] [] = true := by decide

/-- One more than the largest value of each kind is refused, and so is a list of another length. -/
theorem test_argsFit_refuses_ill_formed :
    argsFit [.register] [16] = false ∧ argsFit [.register, .register] [0, 16] = false ∧
    argsFit [.address] [0x1000] = false ∧ argsFit [.register, .byte] [0, 0x100] = false ∧
    argsFit [.register, .register, .nibble] [0, 0, 16] = false ∧ argsFit [.register, .byte] [0] = false ∧
    argsFit [.register] [0, 0] = false ∧ argsFit [] [0] = false := by decide

/-! ## Decoding: a word of every row, written out from R53 -/

/-- Rows 1 to 9. -/
theorem test_decode_low :
    decode 0b0000000011100000#16 = .ok .clear ∧
    decode 0b0000000011101110#16 = .ok .ret ∧
    decode 0b0001101010111100#16 = .ok (.jump 0xABC#12) ∧
    decode 0b0010001100000000#16 = .ok (.call 0x300#12) ∧
    decode 0b0011001101000010#16 = .ok (.skipEqual 3 0x42#8) ∧
    decode 0b0100001101000010#16 = .ok (.skipNotEqual 3 0x42#8) ∧
    decode 0b0101000100100000#16 = .ok (.skipEqualRegister 1 2) ∧
    decode 0b0110101001111111#16 = .ok (.loadByteToVx 0xA 0x7F#8) ∧
    decode 0b0111111111111111#16 = .ok (.addByteToVx 0xF 0xFF#8) := by decide

/-- Rows 10 to 18. -/
theorem test_decode_alu :
    decode 0b1000000100100000#16 = .ok (.setVxToVy 1 2) ∧
    decode 0b1000000100100001#16 = .ok (.orVxVy 1 2) ∧
    decode 0b1000000100100010#16 = .ok (.andVxVy 1 2) ∧
    decode 0b1000000100100011#16 = .ok (.xorVxVy 1 2) ∧
    decode 0b1000101010110100#16 = .ok (.addVxVy 0xA 0xB) ∧
    decode 0b1000000100100101#16 = .ok (.subVxVy 1 2) ∧
    decode 0b1000000100100110#16 = .ok (.shrVxVy 1 2) ∧
    decode 0b1000000100100111#16 = .ok (.subnVxVy 1 2) ∧
    decode 0b1000000100101110#16 = .ok (.shlVxVy 1 2) := by decide

/-- Rows 19 to 25. -/
theorem test_decode_high :
    decode 0b1001000100100000#16 = .ok (.skipNotEqualRegister 1 2) ∧
    decode 0b1010001011110000#16 = .ok (.loadAddress 0x2F0#12) ∧
    decode 0b1011010100000000#16 = .ok (.jumpOffset 0x500#12) ∧
    decode 0b1100001100001111#16 = .ok (.random 3 0x0F#8) ∧
    decode 0b1101000100100101#16 = .ok (.draw 1 2 5#4) ∧
    decode 0b1110000110011110#16 = .ok (.skipKeyPressed 1) ∧
    decode 0b1110001010100001#16 = .ok (.skipKeyNotPressed 2) := by decide

/-- Rows 26 to 34. -/
theorem test_decode_f :
    decode 0b1111010100000111#16 = .ok (.readDelayTimer 5) ∧
    decode 0b1111001100001010#16 = .ok (.waitKeyPress 3) ∧
    decode 0b1111010100010101#16 = .ok (.setDelayTimer 5) ∧
    decode 0b1111001000011000#16 = .ok (.setSoundTimer 2) ∧
    decode 0b1111001000011110#16 = .ok (.addI 2) ∧
    decode 0b1111101000101001#16 = .ok (.loadSprite 0xA) ∧
    decode 0b1111010100110011#16 = .ok (.loadBcd 5) ∧
    decode 0b1111001001010101#16 = .ok (.storeMemory 2) ∧
    decode 0b1111111001100101#16 = .ok (.readMemory 0xE) := by decide

/-- V-DEC-7 to V-DEC-12 and V-DEC-14. -/
theorem test_decode_illegal :
    [0x0000#16, 0x0123#16, 0x5121#16, 0x8128#16, 0xE19F#16, 0xF0FF#16, 0x00E1#16].all
      (fun w => decode w == .error (.unknownInstruction w)) = true := by decide

/-- S1's example in R58: jump with nnn = 0xABC is 0x1ABC; and V-DEC-1 the other way. -/
theorem test_encode :
    encode (.jump 0xABC#12) = 0x1ABC#16 ∧ encode (.draw 1 2 5#4) = 0xD125#16 ∧
    encodeBytes (.loadByteToVx 0xA 0x7F#8) = [0x6A#8, 0x7F#8] := by decide

/-- The table's numbering of bits: one word, and nothing above it. -/
theorem test_decodeTableWord :
    decodeTableWord 16 0x1ABC = some (.jump 0xABC#12) ∧ decodeTableWord 16 0x0000 = none := by decide

/-! ## The step -/

/-- V-STEP-3: the last word of memory runs, and PC becomes 0x1000. -/
theorem test_step_last_word :
    after 0x6001 (State.reset.setPc 0xFFE#16) (fun t => (t.reg 0, t.pc)) = some (1#8, 0x1000#16) := by decide

/-- V-STEP-4 and V-STEP-5. -/
theorem test_step_past_memory :
    (answer (step (State.reset.setPc 0xFFF#16))).map (fun t => (t.fault, t.pc)) =
      some (some ⟨.indexOutOfBounds, none, 0xFFF#16⟩, 0xFFF#16) ∧
    (answer (step (State.reset.setPc 0x1000#16))).map (fun t => (t.fault, t.pc)) =
      some (some ⟨.indexOutOfBounds, none, 0x1000#16⟩, 0x1000#16) := by decide

/-- V-STEP-6: the word 0x0000 of empty memory. -/
theorem test_step_unknown :
    (answer (step State.reset)).map (fun t => (t.fault, t.pc)) =
      some (record .unknownInstruction 0x0000#16, 0x200#16) := by decide

/-- The codes of R120's table. -/
theorem test_error_codes :
    [ErrorKind.unknownInstruction, .stackOverflow, .stackUnderflow, .indexOutOfBounds, .notImplemented].map errorCode =
      [1, 2, 3, 4, 5] := by decide

/-- V-STEP-7 and V-STEP-8: the refused step returns the same record, and only a reset clears it. -/
theorem test_step_refused :
    (hostStep (hostStep State.reset).1).2 = record .unknownInstruction 0x0000#16 ∧
    (hostStep State.reset).1.hostReset = State.reset := by decide

/-! ## Control flow -/

/-- V-CF-1. -/
theorem test_return :
    after 0x00EE (withDepth 1) (fun t => (t.pc, t.sp, t.stack[0])) = some (0x206#16, -1, 0x206#16) := by decide

/-- V-CF-2. -/
theorem test_return_underflow :
    after 0x00EE State.reset (fun t => (t.fault, t.pc, t.sp)) =
      some (record .stackUnderflow 0x00EE#16, 0x200#16, -1) := by decide

/-- V-CF-3 and V-CF-6: the pushed address is not reduced. -/
theorem test_call :
    after 0x2300 State.reset (fun t => (t.pc, t.sp, t.stack[0])) = some (0x300#16, 0, 0x202#16) ∧
    after 0x2400 (State.reset.setPc 0xFFE#16) (fun t => (t.pc, t.stack[0])) = some (0x400#16, 0x1000#16) := by
  decide

/-- V-CF-5. -/
theorem test_call_overflow :
    after 0x2300 (withDepth 16) (fun t => (t.fault, t.pc, t.sp)) =
      some (record .stackOverflow 0x2300#16, 0x200#16, 15) := by decide

/-- V-CF-7. -/
theorem test_jump : after 0x1ABC State.reset (fun t => t.pc) = some 0xABC#16 := by decide

/-- V-CF-7c: the sum is not reduced. -/
theorem test_jump_offset_top :
    after 0xBFFF (withRegs [(0, 0xFF#8)]) (fun t => t.pc) = some 0x10FE#16 := by decide

/-- V-CF-7d: only V0 is added. -/
theorem test_jump_offset_uses_v0 :
    after 0xB500 (withRegs [(0, 0x01#8), (5, 0x40#8)]) (fun t => t.pc) = some 0x501#16 := by decide

/-- V-CF-8, V-CF-9. -/
theorem test_skip_equal :
    after 0x3342 (withRegs [(3, 0x42#8)]) (fun t => t.pc) = some 0x204#16 ∧
    after 0x3343 (withRegs [(3, 0x42#8)]) (fun t => t.pc) = some 0x202#16 := by decide

/-- V-CF-10, V-CF-11. -/
theorem test_skip_not_equal :
    after 0x4342 (withRegs [(3, 0x42#8)]) (fun t => t.pc) = some 0x202#16 ∧
    after 0x4300 (withRegs [(3, 0x42#8)]) (fun t => t.pc) = some 0x204#16 := by decide

/-- V-CF-12, V-CF-13. -/
theorem test_skip_equal_register :
    after 0x5120 (withRegs [(1, 7#8), (2, 7#8)]) (fun t => t.pc) = some 0x204#16 ∧
    after 0x5120 (withRegs [(1, 7#8), (2, 8#8)]) (fun t => t.pc) = some 0x202#16 := by decide

/-- V-CF-14, V-CF-15. -/
theorem test_skip_not_equal_register :
    after 0x9120 (withRegs [(1, 7#8), (2, 8#8)]) (fun t => t.pc) = some 0x204#16 ∧
    after 0x9110 (withRegs [(1, 7#8)]) (fun t => t.pc) = some 0x202#16 := by decide

/-! ## Register load, arithmetic and logic -/

/-- V-ALU-1. -/
theorem test_load_byte :
    after 0x6A7F State.reset (fun t => (t.reg 0xA, t.reg 0xF, t.pc)) = some (0x7F#8, 0#8, 0x202#16) := by decide

/-- V-ALU-2. -/
theorem test_add_byte_wraps :
    after 0x7001 (withRegs [(0, 0xFF#8)]) (fun t => (t.reg 0, t.reg 0xF)) = some (0#8, 0#8) := by decide

/-- V-ALU-4: VF as data. -/
theorem test_add_byte_vf : after 0x7F01 (withRegs [(15, 0x10#8)]) (fun t => t.reg 15) = some 0x11#8 := by decide

/-- V-ALU-5. -/
theorem test_set : after 0x8120 (withRegs [(2, 0x33#8)]) (fun t => t.reg 1) = some 0x33#8 := by decide

/-- V-ALU-6. -/
theorem test_or :
    after 0x8121 (withRegs [(1, 0xF0#8), (2, 0x0F#8), (15, 0x55#8)]) (fun t => (t.reg 1, t.reg 15)) =
      some (0xFF#8, 0x55#8) := by decide

/-- V-ALU-7. -/
theorem test_and :
    after 0x8122 (withRegs [(1, 0xF0#8), (2, 0x3C#8)]) (fun t => t.reg 1) = some 0x30#8 := by decide

/-- V-ALU-8, V-ALU-9. -/
theorem test_xor :
    after 0x8123 (withRegs [(1, 0xF0#8), (2, 0x3C#8)]) (fun t => t.reg 1) = some 0xCC#8 ∧
    after 0x8113 (withRegs [(1, 0x5A#8)]) (fun t => t.reg 1) = some 0#8 := by decide

/-- V-ALU-10 to V-ALU-12. -/
theorem test_add :
    after 0x8014 (withRegs [(0, 0xFF#8), (1, 2#8)]) (fun t => (t.reg 0, t.reg 15)) = some (1#8, 1#8) ∧
    after 0x8014 (withRegs [(0, 0x80#8), (1, 0x7F#8)]) (fun t => (t.reg 0, t.reg 15)) = some (0xFF#8, 0#8) ∧
    after 0x8004 (withRegs [(0, 0x80#8)]) (fun t => (t.reg 0, t.reg 15)) = some (0#8, 1#8) := by decide

/-- V-ALU-13 under each setting of `ALU_SETS_VF`. -/
theorem test_add_to_vf :
    after 0x8F14 (withRegs [(15, 0xFF#8), (1, 1#8)]) (fun t => t.reg 15) = some 1#8 ∧
    after 0x8F14 (withParams false .vx (withRegs [(15, 0xFF#8), (1, 1#8)])) (fun t => t.reg 15) = some 0#8 := by
  decide

/-- V-ALU-14, V-ALU-15. -/
theorem test_sub :
    after 0x8015 (withRegs [(0, 5#8), (1, 7#8), (15, 9#8)]) (fun t => (t.reg 0, t.reg 15)) = some (0xFE#8, 0#8) ∧
    after 0x8015 (withRegs [(0, 7#8), (1, 7#8)]) (fun t => (t.reg 0, t.reg 15)) = some (0#8, 1#8) := by decide

/-- V-ALU-16, V-ALU-17. -/
theorem test_subn :
    after 0x8017 (withRegs [(0, 5#8), (1, 7#8)]) (fun t => (t.reg 0, t.reg 15)) = some (2#8, 1#8) ∧
    after 0x8017 (withRegs [(0, 7#8), (1, 5#8)]) (fun t => (t.reg 0, t.reg 15)) = some (0xFE#8, 0#8) := by decide

/-- V-ALU-18 under each setting of `SHIFT_SOURCE`. -/
theorem test_shr :
    after 0x8016 (withRegs [(0, 5#8), (1, 0xF0#8)]) (fun t => (t.reg 0, t.reg 15)) = some (2#8, 1#8) ∧
    after 0x8016 (withParams true .vy (withRegs [(0, 5#8), (1, 0xF0#8)])) (fun t => (t.reg 0, t.reg 15)) =
      some (0x78#8, 0#8) := by decide

/-- V-ALU-19c. -/
theorem test_shr_vf : after 0x8F06 (withRegs [(15, 3#8)]) (fun t => t.reg 15) = some 1#8 := by decide

/-- V-ALU-19 under each setting of `SHIFT_SOURCE`. -/
theorem test_shl :
    after 0x801E (withRegs [(0, 0x81#8), (1, 1#8)]) (fun t => (t.reg 0, t.reg 15)) = some (2#8, 1#8) ∧
    after 0x801E (withParams true .vy (withRegs [(0, 0x81#8), (1, 1#8)])) (fun t => (t.reg 0, t.reg 15)) =
      some (2#8, 0#8) := by decide

/-- V-ALU-21 and V-ALU-22 for whatever the draw is: all bits masked, and none. -/
theorem test_random :
    after 0xC300 State.reset (fun t => t.reg 3) = some 0#8 ∧
    after 0xC3FF State.reset (fun t => t.reg 3) = some (Config.rand8 State.reset.draws) := by
  have h (kk : Byte) (w : Nat)
      (hs : step (State.reset.withFetchWord 16 w) = exec (.random 3 kk) (State.reset.withFetchWord 16 w)) :
      after w State.reset (fun t => t.reg 3) = some (Config.rand8 State.reset.draws &&& kk) := by
    simp only [after, hs, exec, execRandom, commit, answer, Option.map_some, State.advance, State.setPc_reg,
      State.reg_setReg_self]
    rfl
  constructor
  · rw [h 0x00#8 0xC300 rfl, BitVec.and_zero]
  · rw [h 0xFF#8 0xC3FF rfl]
    exact congrArg some (BitVec.and_allOnes)

/-! ## Index-register addressing -/

/-- V-ADR-1. -/
theorem test_load_address : after 0xA2F0 State.reset (fun t => t.iReg) = some 0x2F0#16 := by decide

/-- V-ADR-2, V-ADR-3. -/
theorem test_add_i :
    after 0xF21E ((withRegs [(2, 1#8)]).setI 0x0FFF#16) (fun t => (t.iReg, t.reg 15, t.fault)) =
      some (0x1000#16, 0#8, none) ∧
    after 0xF21E ((withRegs [(2, 2#8)]).setI 0xFFFF#16) (fun t => t.iReg) = some 0x0001#16 := by decide

/-- V-ADR-4, V-ADR-6. -/
theorem test_load_sprite :
    after 0xFA29 (withRegs [(0xA, 0x0A#8)]) (fun t => t.iReg) = some 0x032#16 ∧
    after 0xF129 (withRegs [(1, 0xFF#8)]) (fun t => t.iReg) = some 0x4FB#16 := by decide

/-! ## Memory transfer -/

/-- V-MEM-1, V-MEM-2. -/
theorem test_load_bcd :
    after 0xF533 ((withRegs [(5, 234#8)]).setI 0x300#16)
      (fun t => (Memory.readBytes t.mem 0x300 3, t.iReg)) = some ([2#8, 3#8, 4#8], 0x300#16) ∧
    after 0xF533 ((withRegs [(5, 255#8)]).setI 0xFFD#16) (fun t => Memory.readBytes t.mem 0xFFD 3) =
      some [2#8, 5#8, 5#8] := by decide

/-- V-MEM-3. -/
theorem test_load_bcd_bounds :
    after 0xF533 ((withRegs [(5, 1#8)]).setI 0xFFE#16) (fun t => (t.fault, Memory.read t.mem 0xFFE)) =
      some (record .indexOutOfBounds 0xF533#16, 0#8) := by decide

/-- V-MEM-5. -/
theorem test_store_memory :
    after 0xF255 (withBytes (withRegs [(0, 1#8), (1, 2#8), (2, 3#8)]) 0x300 [9#8, 9#8, 9#8, 9#8])
      (fun t => (Memory.readBytes t.mem 0x300 4, t.iReg)) = some ([1#8, 2#8, 3#8, 9#8], 0x300#16) := by decide

/-- V-MEM-7. -/
theorem test_store_memory_bounds :
    after 0xFF55 ((withRegs [(0, 1#8)]).setI 0xFF1#16) (fun t => (t.fault, Memory.read t.mem 0xFF1)) =
      some (record .indexOutOfBounds 0xFF55#16, 0#8) := by decide

/-- V-MEM-6. -/
theorem test_read_memory :
    after 0xF365 (withBytes (withRegs [(4, 5#8)]) 0x300 [9#8, 8#8, 7#8, 6#8, 4#8])
      (fun t => (t.reg 0, t.reg 1, t.reg 2, t.reg 3, t.reg 4, t.iReg)) =
      some (9#8, 8#8, 7#8, 6#8, 5#8, 0x300#16) := by decide

/-- V-MEM-8, V-MEM-9. -/
theorem test_read_memory_bounds :
    after 0xF165 (withBytes State.reset 0xFFF [0x42#8]) (fun t => (t.fault, t.reg 0)) =
      some (record .indexOutOfBounds 0xF165#16, 0#8) ∧
    after 0xF065 (withBytes State.reset 0xFFF [0x42#8]) (fun t => (t.fault, t.reg 0)) = some (none, 0x42#8) := by
  decide

/-! ## Display -/

/-- V-DRAW-12. -/
theorem test_clear :
    after 0x00E0 (State.reset.setFb (Framebuffer.set blankScreen 63 31 true))
      (fun t => (t.pixel 63 31, t.pixel 0 0, t.reg 15, t.pc)) = some (false, false, 0#8, 0x202#16) := by decide

/-- V-DRAW-3 and V-DRAW-5: columns wrap, and both coordinates are reduced. -/
theorem test_draw_wraps :
    after 0xD011 (withBytes (withRegs [(0, 62#8)]) 0x300 [0xF0#8])
      (fun t => ([61, 62, 63, 0, 1, 2].map (fun px => t.pixel px 0), t.reg 15)) =
      some ([false, true, true, true, true, false], 0#8) ∧
    after 0xD011 (withBytes (withRegs [(0, 100#8), (1, 40#8)]) 0x300 [0x80#8])
      (fun t => (t.pixel 36 8, t.pixel 37 8)) = some (true, false) := by decide

/-- V-DRAW-11, V-DRAW-6 and V-DRAW-8: a collision, no collision, and a row past memory. -/
theorem test_draw_collision :
    after 0xD011 ((withBytes State.reset 0x300 [0x81#8]).setFb
        (Framebuffer.set (Framebuffer.set blankScreen 0 0 true) 7 0 true))
      (fun t => (t.pixel 0 0, t.pixel 7 0, t.reg 15)) = some (false, false, 1#8) ∧
    after 0xD011 ((withBytes State.reset 0x300 [0x40#8]).setFb (Framebuffer.set blankScreen 0 0 true))
      (fun t => (t.pixel 0 0, t.pixel 1 0, t.reg 15)) = some (true, true, 0#8) ∧
    after 0xD012 (withBytes State.reset 0xFFF [0x80#8]) (fun t => (t.fault, t.pixel 0 0)) =
      some (record .indexOutOfBounds 0xD012#16, false) := by decide

/-! ## Timers and input -/

/-- V-TMR-1. -/
theorem test_read_delay_timer :
    after 0xF507 (State.reset.setDt 0x3C#8) (fun t => (t.reg 5, t.dt)) = some (0x3C#8, 0x3C#8) := by decide

/-- V-TMR-2. -/
theorem test_set_delay_timer :
    after 0xF515 (withRegs [(5, 0x3C#8)]) (fun t => (t.dt, t.st)) = some (0x3C#8, 0#8) := by decide

/-- V-TMR-3. -/
theorem test_set_sound_timer :
    after 0xF218 (withRegs [(2, 5#8)]) (fun t => (t.st, t.dt)) = some (5#8, 0#8) := by decide

/-- V-TMR-4, V-TMR-5. -/
theorem test_tick :
    ((State.reset.setDt 2#8).tick.dt, (State.reset.setDt 2#8).tick.st) = (1#8, 0#8) ∧
    (((State.reset.setDt 1#8).setSt 1#8).tick.tick.dt, ((State.reset.setDt 1#8).setSt 1#8).tick.tick.st) =
      (0#8, 0#8) := by decide

/-- V-IN-1. -/
theorem test_skip_key_pressed :
    after 0xE19E State.reset (fun t => (t.fault, t.pc, t.fault.map payloadOf)) =
      some (record .notImplemented 0xE19E#16, 0x200#16, some (.name "skip_key_pressed")) := by decide

/-- V-IN-2. -/
theorem test_skip_key_not_pressed :
    after 0xE2A1 State.reset (fun t => (t.fault, t.pc, t.fault.map payloadOf)) =
      some (record .notImplemented 0xE2A1#16, 0x200#16, some (.name "skip_key_not_pressed")) := by decide

/-- V-IN-3. -/
theorem test_wait_key_press :
    after 0xF30A State.reset (fun t => (t.fault, t.pc, t.fault.map payloadOf)) =
      some (record .notImplemented 0xF30A#16, 0x200#16, some (.name "wait_key_press")) := by decide

/-! ## Witnesses: for each statement with hypotheses, a state and operands that meet all of them -/

/-- Of `EncodeOfDecode`: a word that decodes. -/
theorem witness_EncodeOfDecode : decode 0xD125#16 = .ok (.draw 1 2 5#4) := by decide

/-- Of `IllegalWordsAreExactlyThese`: an illegal word of each clause, and the legal word beside it. -/
theorem witness_IllegalWords :
    [0x00DF#16, 0x0FFF#16, 0x5001#16, 0x5FFF#16, 0x8008#16, 0x8FFF#16, 0x9001#16, 0xE09F#16, 0xEF9D#16,
      0xF006#16, 0xFF66#16].all (fun w => decode w == .error (.unknownInstruction w)) = true ∧
    [0x00E0#16, 0x00EE#16, 0x5FF0#16, 0x8FFE#16, 0x9FF0#16, 0xEFA1#16, 0xFF65#16].all
      (fun w => decode w != .error (.unknownInstruction w)) = true := by decide

/-- Of `StepRunsTheDecodedInstruction`, at the highest PC the fetch allows. -/
theorem witness_StepRunsTheDecodedInstruction :
    let s := (withBytes State.reset 0xFFE [0x6A#8, 0x7F#8]).setPc 0xFFE#16
    s.fault = none ∧ s.pc.toNat + 1 ≤ 0xFFF ∧
    (0x6A7F#16).toNat = (Memory.read s.mem s.pc.toNat).toNat * 256 + (Memory.read s.mem (s.pc.toNat + 1)).toNat ∧
    decode 0x6A7F#16 = .ok (.loadByteToVx 0xA 0x7F#8) := by decide

/-- Of `PlacedWordIsExecuted`, at the highest PC the fetch allows. -/
theorem witness_PlacedWordIsExecuted :
    let s := State.reset.setPc 0xFFE#16
    s.fault = none ∧ s.pc.toNat + 1 ≤ 0xFFF ∧ Memory.wf s.mem ∧
    decodeTableWord 16 0x1ABC = some (.jump 0xABC#12) := by decide

/-- Of `FetchPastMemoryRaises`, at the lowest PC it speaks of. -/
theorem witness_FetchPastMemoryRaises :
    (State.reset.setPc 0xFFF#16).fault = none ∧ 0xFFF < (State.reset.setPc 0xFFF#16).pc.toNat + 1 := by decide

/-- Of `UnknownWordRaises`: empty memory. -/
theorem witness_UnknownWordRaises :
    State.reset.fault = none ∧ fetch State.reset = some 0x0000#16 ∧
    ∀ d ∈ catalog, 0x0000#16 &&& d.mask ≠ d.opcode := by
  refine ⟨rfl, by decide, ?_⟩
  have h : catalog.all (fun d => decide (0x0000#16 &&& d.mask ≠ d.opcode)) = true := by decide
  exact fun d hd => of_decide_eq_true (List.all_eq_true.1 h d hd)

/-- Of `FaultedStepIsRefused`. -/
theorem witness_FaultedStepIsRefused :
    (State.reset.setFault (record .stackUnderflow 0x00EE#16)).fault = record .stackUnderflow 0x00EE#16 := rfl

/-- Of `FailingStepChangesOnlyTheLatch`: a failing fetch, decode and execution. -/
theorem witness_FailingStepChangesOnlyTheLatch :
    [State.reset.setPc 0xFFF#16, State.reset, State.reset.withFetchWord 16 0x00EE].all
      (fun s => match step s with
        | .next t => decide (t.fault ≠ none)
        | _ => false) = true := by decide

/-- Of `CommittedStepMovesPc`, each clause: a jump, a skip that is taken, one that is not, and another. -/
theorem witness_CommittedStepMovesPc :
    [0x1ABC, 0x3000, 0x4000, 0x6A7F].all
      (fun w =>
        let s := State.reset.withFetchWord 16 w
        fetch s == some (BitVec.ofNat 16 w) &&
        match decode (BitVec.ofNat 16 w), step s with
        | .ok _, .next t => decide (t.fault = none)
        | _, _ => false) = true := by decide

/-- Of `IdleStepChangesNothing`: V-CF-7a. -/
theorem witness_IdleStepChangesNothing :
    Idle ((State.reset.setPc 0x20A#16).withFetchWord 16 0x120A) := ⟨by decide, by decide⟩

/-- Of `StepKeepsTheInvariant`: a store, at the highest return address and a high PC. -/
theorem witness_StepKeepsTheInvariant :
    let s := (((withRegs [(0, 7#8)]).setStack (Vector.replicate 16 0x1000#16) 16).setPc 0xFFE#16).withFetchWord 16 0xF055
    (Memory.wf s.mem ∧ s.pc.toNat ≤ 0x10FE ∧ ∀ k : Fin 16, (s.stack[k]).toNat ≤ 0x1000) ∧
    (answer (step s)).isSome = true := by decide

/-- Of `StepLatchesTheTruth`: a step that latches a record. -/
theorem witness_StepLatchesTheTruth : LatchTrue State.reset ∧ (answer (step State.reset)).isSome = true :=
  ⟨fun _ h => (by cases h), by decide⟩

/-- Of `HostMovesKeepTheInvariants`: load, steps, ticks and a reset between them. -/
theorem witness_HostMovesKeepTheInvariants :
    startSession.Inv ∧
    (hostMoves [.load 0xFFF 1#8, .step, .tick, .step, .reset, .load 0x200 0#8] startSession).isSome = true :=
  ⟨⟨⟨by decide, by decide, by decide⟩, fun _ h => (by cases h), fun _ => rfl⟩, by decide⟩

/-- Of `EqualReadsAreEqualMemories`: two memories written in opposite order. -/
theorem witness_EqualReadsAreEqualMemories :
    let m := Memory.write (Memory.write [] 0xFFF 1#8) 0 2#8
    let k := Memory.write (Memory.write [] 0 2#8) 0xFFF 1#8
    Memory.wf m ∧ Memory.wf k ∧ ∀ a, Memory.read m a = Memory.read k a :=
  ⟨by decide, by decide, fun _ => rfl⟩

/-- Of `ProgramLoadsFromStart`, each clause: the longest program that fits, and one byte more. -/
theorem witness_ProgramLoadsFromStart :
    (List.replicate 3584 0xFF#8).length ≤ 3584 ∧ 3584 < (List.replicate 3585 0xFF#8).length :=
  ⟨by rw [List.length_replicate], by rw [List.length_replicate]; decide⟩

/-- Of `NoLoadAfterTheFirstStep`. -/
theorem witness_NoLoadAfterTheFirstStep :
    HostMove.reset ∉ [HostMove.tick, .step] ∧
    (hostMoves (.step :: [HostMove.tick, .step]) startSession).isSome = true := by decide

/-- Of `CallPushesTheReturnAddress`, each clause at its boundary, and of `ReturnUndoesCall`. -/
theorem witness_CallPushes :
    (withDepth 15).sp < 15 ∧ 15 ≤ (withDepth 16).sp ∧ (withDepth 15).fault = none := by decide

/-- Of `ReturnPopsTheReturnAddress`, each clause at its boundary. -/
theorem witness_ReturnPops : 0 ≤ (withDepth 1).sp ∧ (withDepth 0).sp = -1 := by decide

/-- Of `SixteenCallsThenOverflow`, with all sixteen targets. -/
theorem witness_SixteenCalls :
    State.reset.fault = none ∧ State.reset.sp = -1 ∧ (List.replicate 16 0x200#12).length ≤ 16 ∧
    (List.replicate 16 0x200#12).length = 16 := by decide

/-- Of `AluEffect` in the statements of the five flag instructions: each setting of `ALU_SETS_VF`, and a destination
that is not VF. -/
theorem witness_AluEffect :
    State.reset.params.aluSetsVf = true ∧ (withParams false .vx State.reset).params.aluSetsVf = false ∧
    (0 : RegIdx) ≠ regVF := by decide

/-- Of `ShiftsByOne`: each setting of `SHIFT_SOURCE`. -/
theorem witness_ShiftsByOne :
    (0 : RegIdx) = (if (withParams true .vx State.reset).params.shiftSource = .vx then 0 else 1) ∧
    (1 : RegIdx) = (if (withParams true .vy State.reset).params.shiftSource = .vx then 0 else 1) := by decide

/-- Of `LoadBcdWritesThreeDigits`, each clause at its boundary. -/
theorem witness_LoadBcd :
    Memory.wf State.reset.mem ∧ (State.reset.setI 0xFFD#16).iReg.toNat + 2 ≤ 0xFFF ∧
    0xFFF < (State.reset.setI 0xFFE#16).iReg.toNat + 2 := by decide

/-- Of `StoreMemoryCopiesRegistersOut`, `ReadMemoryCopiesRegistersIn` and `ReloadRestoresStoredRegisters`, each clause
at its boundary. -/
theorem witness_BulkTransfers :
    State.reset.fault = none ∧ Memory.wf State.reset.mem ∧
    (State.reset.setI 0xFF0#16).iReg.toNat + (15 : RegIdx).val ≤ 0xFFF ∧
    0xFFF < (State.reset.setI 0xFF1#16).iReg.toNat + (15 : RegIdx).val := by decide

/-- Of `StoredWordIsFetchedNext`, at the highest place it speaks of. -/
theorem witness_StoredWordIsFetchedNext :
    let s := (State.reset.setPc 0xFFC#16).setI 0xFFE#16
    Memory.wf s.mem ∧ 1 ≤ (1 : RegIdx).val ∧ s.iReg.toNat = s.pc.toNat + 2 ∧
    s.iReg.toNat + (1 : RegIdx).val ≤ 0xFFF := by decide

/-- Of `DrawXorsTheSprite`, each clause: the pixels a sprite hits, no rows with I out of range, one row at the last
address, and two rows there. -/
theorem witness_DrawXors :
    (∃ hit : Fin 64 → Fin 32 → Prop, ∀ px py, hit px py ↔
      ∃ row col : Nat, row < (1#4).toNat ∧ col < 8 ∧ px.val = ((State.reset.reg 0).toNat + col) % 64 ∧
        py.val = ((State.reset.reg 1).toNat + row) % 32 ∧
        (Memory.read State.reset.mem (State.reset.iReg.toNat + row)).getLsbD (7 - col) = true) ∧
    ((0#4 : Nibble) = 0#4) ∧ (State.reset.setI 0xFFF#16).iReg.toNat + (1#4).toNat - 1 ≤ 0xFFF ∧
    0 < (2#4).toNat ∧ 0xFFF < (State.reset.setI 0xFFF#16).iReg.toNat + (2#4).toNat - 1 :=
  ⟨⟨_, fun _ _ => Iff.rfl⟩, rfl, by decide, by decide, by decide⟩

/-- Of the two collision clauses of `DrawXorsTheSprite`: V-DRAW-11's sprite hits a set pixel, and on an empty screen
none. -/
theorem witness_DrawXors_collision :
    let s := (withBytes State.reset 0x300 [0x81#8]).setFb (Framebuffer.set blankScreen 7 0 true)
    (∃ row col : Nat, row < (1#4).toNat ∧ col < 8 ∧ (7 : Fin 64).val = ((s.reg 0).toNat + col) % 64 ∧
      (0 : Fin 32).val = ((s.reg 1).toNat + row) % 32 ∧
      (Memory.read s.mem (s.iReg.toNat + row)).getLsbD (7 - col) = true) ∧
    s.pixel 7 0 = true ∧ ∀ px py, State.reset.pixel px py = false :=
  ⟨⟨0, 7, by decide⟩, by decide, fun px py => by simp [State.pixel, State.reset]⟩

/-- Of `DrawingTwiceRestoresTheScreen`. -/
theorem witness_DrawingTwice :
    State.reset.fault = none ∧ (0 : RegIdx) ≠ regVF ∧ (1 : RegIdx) ≠ regVF ∧
    (State.reset.setI 0xFFF#16).iReg.toNat + (1#4).toNat - 1 ≤ 0xFFF := by decide

/-- Of `OnlyTheTableWritesRegisters`, `EachPartHasItsWriters` and `NoInstructionReadsSt`: an instruction of each writer
class answers a next state, and the premise that a part changed is met. -/
theorem witness_Writers :
    [(.loadByteToVx 1 2#8 : Instr), .addVxVy 15 1, .draw 0 1 1#4, .readMemory 3, .clear].all
      (fun i => (answer (exec i State.reset)).isSome) = true ∧
    (answer (exec (.addVxVy 15 1) (withParams false .vx State.reset))).isSome = true ∧
    (answer (exec (.loadAddress 1#12) State.reset)).map (fun t => decide (t.iReg ≠ State.reset.iReg)) = some true ∧
    (answer (exec (.call 1#12) State.reset)).map (fun t => decide (t.sp ≠ State.reset.sp)) = some true ∧
    (answer (exec (.setDelayTimer 0) (withRegs [(0, 1#8)]))).map (fun t => decide (t.dt ≠ 0#8)) = some true ∧
    (answer (exec (.setSoundTimer 0) (withRegs [(0, 1#8)]))).map (fun t => decide (t.st ≠ 0#8)) = some true ∧
    (answer (exec (.draw 0 1 1#4) (withBytes State.reset 0x300 [0x80#8]))).map (fun t => t.pixel 0 0) = some true := by
  decide

/-- Of the clause of `EachPartHasItsWriters` on draws: random takes one. -/
theorem witness_Draws : ∃ t, exec (.random 0 0#8) State.reset = .next t ∧ t.draws ≠ State.reset.draws :=
  ⟨_, rfl, by decide⟩

/-- Of `OnlyTwoInstructionsWriteMemory`, each clause. -/
theorem witness_OnlyTwoInstructionsWriteMemory :
    Memory.wf State.reset.mem ∧
    [(.loadBcd 0 : Instr), .storeMemory 3, .clear].all (fun i => (answer (exec i State.reset)).isSome) = true := by
  decide

end Sys2Proof.Machine.Tests
end

namespace Sys2Proof.Machine

/-! ## Frames: which parts of the state an operation leaves alone

`UnchangedBut` is composed along a chain of field writes, then carried through the three ends an arm of `exec` can
have (commit, raise, checked access). -/

section Frames

variable {ps qs : List Part} {s t u : State}

theorem UnchangedBut.refl (s : State) : UnchangedBut [] s s := by
  intro p _
  cases p <;> simp [Part.same]

theorem Part.same_trans {p : Part} (h : p.same s t) (h' : p.same t u) : p.same s u := by
  cases p with
  | regs => exact fun r => (h' r).trans (h r)
  | stack => exact ⟨h'.1.trans h.1, fun k => (h'.2 k).trans (h.2 k)⟩
  | mem => exact fun a => (h' a).trans (h a)
  | fb => exact fun px py => (h' px py).trans (h px py)
  | index | pc | dt | st | fault | params | draws => exact Eq.trans h' h

theorem UnchangedBut.mono (h : UnchangedBut ps s t) (hsub : ps ⊆ qs) : UnchangedBut qs s t :=
  fun p hp => h p fun hm => hp (hsub hm)

theorem UnchangedBut.trans (h : UnchangedBut ps s t) (h' : UnchangedBut qs t u) :
    UnchangedBut (qs ++ ps) s u := by
  intro p hp
  rw [List.mem_append, not_or] at hp
  exact Part.same_trans (h p hp.2) (h' p hp.1)

/-! ### The field writes -/

theorem State.setPc_unchangedBut (s : State) (a : Word) : UnchangedBut [.pc] s (s.setPc a) := by
  intro p hp
  cases p <;> simp_all [Part.same]

theorem State.setI_unchangedBut (s : State) (a : Word) : UnchangedBut [.index] s (s.setI a) := by
  intro p hp
  cases p <;> simp_all [Part.same]

theorem State.setRegs_unchangedBut (s : State) (v : Vector Byte 16) : UnchangedBut [.regs] s (s.setRegs v) := by
  intro p hp
  cases p <;> simp_all [Part.same]

theorem State.setStack_unchangedBut (s : State) (k : Vector Word 16) (d : Fin 17) :
    UnchangedBut [.stack] s (s.setStack k d) := by
  intro p hp
  cases p <;> simp_all [Part.same]

theorem State.setDt_unchangedBut (s : State) (b : Byte) : UnchangedBut [.dt] s (s.setDt b) := by
  intro p hp
  cases p <;> simp_all [Part.same]

theorem State.setSt_unchangedBut (s : State) (b : Byte) : UnchangedBut [.st] s (s.setSt b) := by
  intro p hp
  cases p <;> simp_all [Part.same]

theorem State.setMem_unchangedBut (s : State) (m : Memory) : UnchangedBut [.mem] s (s.setMem m) := by
  intro p hp
  cases p <;> simp_all [Part.same]

theorem State.setFb_unchangedBut (s : State) (f : Framebuffer) : UnchangedBut [.fb] s (s.setFb f) := by
  intro p hp
  cases p <;> simp_all [Part.same]

theorem State.setFault_unchangedBut (s : State) (f : Option FaultRecord) :
    UnchangedBut [.fault] s (s.setFault f) := by
  intro p hp
  cases p <;> simp_all [Part.same]

theorem State.setDraws_unchangedBut (s : State) (k : Nat) : UnchangedBut [.draws] s (s.setDraws k) := by
  intro p hp
  cases p <;> simp_all [Part.same]

theorem State.setReg_unchangedBut (s : State) (x : RegIdx) (b : Byte) : UnchangedBut [.regs] s (s.setReg x b) :=
  s.setRegs_unchangedBut _

theorem State.aluResult_unchangedBut (s : State) (x : RegIdx) (b : Byte) (f : Bool) :
    UnchangedBut [.regs] s (s.aluResult x b f) := by
  unfold State.aluResult State.aluFlag
  split
  · exact ((s.setReg_unchangedBut x b).trans (State.setReg_unchangedBut _ _ _)).mono (by simp)
  · exact s.setReg_unchangedBut x b

theorem UnchangedBut.setPc (h : UnchangedBut ps s t) (a : Word) : UnchangedBut (.pc :: ps) s (t.setPc a) :=
  h.trans (t.setPc_unchangedBut a)

/-! ### The ends of an instruction -/

/-- If the outcome of an instruction run from `s` is a next state, only the named parts have changed. -/
def ChangesOnly (ps : List Part) (s : State) (o : Host.Outcome State Fault Refusal) : Prop :=
  ∀ t, o = .next t → UnchangedBut ps s t

theorem ChangesOnly.mono {o : Host.Outcome State Fault Refusal} (h : ChangesOnly ps s o) (hsub : ps ⊆ qs) :
    ChangesOnly qs s o :=
  fun t ht => (h t ht).mono hsub

theorem UnchangedBut.changesOnly_next (h : UnchangedBut ps s t) : ChangesOnly ps s (.next t) := by
  rintro _ ⟨⟩
  exact h

theorem UnchangedBut.changesOnly_commit (h : UnchangedBut ps s t) (a : Word) :
    ChangesOnly (.pc :: ps) s (commit (t.setPc a)) :=
  (h.setPc a).changesOnly_next

theorem raiseIn_changesOnly (i : Instr) (k : ErrorKind) (s : State) :
    ChangesOnly [.fault] s (raiseIn i k s) :=
  (s.setFault_unchangedBut _).changesOnly_next

theorem UnchangedBut.changesOnly_checkedAccess (h : UnchangedBut ps s t) (i : Instr) (n : Nat) :
    ChangesOnly (.fault :: .pc :: ps) s (checkedAccess i n s t) := by
  obtain ⟨-, hc⟩ | ⟨-, -, hr⟩ := checkedAccess_cases i n s t
  · rw [hc]
    exact (h.changesOnly_commit _).mono (by simp)
  · rw [hr]
    exact (raiseIn_changesOnly i _ s).mono (by simp)

/-- Taken or not, the stack is all that `return` changes beside PC and the latch (R74). -/
theorem execRet_changesOnly (s : State) : ChangesOnly [.fault, .pc, .stack] s (execRet s) := by
  unfold execRet
  by_cases h : 0 < s.depth.val
  · rw [s.pop_of_pos h]
    exact ((s.setStack_unchangedBut _ _).changesOnly_commit _).mono (by simp)
  · rw [s.pop_of_empty h]
    exact (raiseIn_changesOnly _ _ s).mono (by simp)

/-- With room or without, the stack is all that `call` changes beside PC and the latch (R75). -/
theorem execCall_changesOnly (nnn : Addr12) (s : State) :
    ChangesOnly [.fault, .pc, .stack] s (execCall nnn s) := by
  unfold execCall
  by_cases h : s.depth.val < 16
  · rw [s.push_of_lt _ h]
    exact ((s.setStack_unchangedBut _ _).changesOnly_commit _).mono (by simp)
  · rw [s.push_of_full _ h]
    exact (raiseIn_changesOnly _ _ s).mono (by simp)

end Frames

/-! ## What each instruction may write -/

/-- The parts of the state each instruction may write; the fault latch for those that can raise. -/
def mayWrite : Instr → List Part
  | .clear => [.pc, .fb]
  | .ret | .call _ => [.fault, .pc, .stack]
  | .jump _ | .jumpOffset _ | .skipEqual _ _ | .skipNotEqual _ _ | .skipEqualRegister _ _
  | .skipNotEqualRegister _ _ => [.pc]
  | .loadByteToVx _ _ | .addByteToVx _ _ | .setVxToVy _ _ | .orVxVy _ _ | .andVxVy _ _ | .xorVxVy _ _
  | .addVxVy _ _ | .subVxVy _ _ | .shrVxVy _ _ | .subnVxVy _ _ | .shlVxVy _ _ | .readDelayTimer _ => [.pc, .regs]
  | .random _ _ => [.pc, .regs, .draws]
  | .loadAddress _ | .addI _ | .loadSprite _ => [.pc, .index]
  | .draw _ _ _ => [.fault, .pc, .regs, .fb]
  | .skipKeyPressed _ | .skipKeyNotPressed _ | .waitKeyPress _ => [.fault]
  | .setDelayTimer _ => [.pc, .dt]
  | .setSoundTimer _ => [.pc, .st]
  | .loadBcd _ | .storeMemory _ => [.fault, .pc, .mem]
  | .readMemory _ => [.fault, .pc, .regs]

/-- The frame of every instruction. -/
theorem exec_changesOnly (i : Instr) (s : State) : ChangesOnly (mayWrite i) s (exec i s) := by
  cases i with
  | clear => exact (s.setFb_unchangedBut _).changesOnly_commit _
  | ret => exact execRet_changesOnly s
  | call nnn => exact execCall_changesOnly nnn s
  | jump nnn | jumpOffset nnn => exact (UnchangedBut.refl s).changesOnly_commit _
  | skipEqual x b | skipNotEqual x b | skipEqualRegister x b | skipNotEqualRegister x b =>
    exact (UnchangedBut.refl s).changesOnly_commit _
  | loadByteToVx x b | addByteToVx x b | setVxToVy x b | orVxVy x b | andVxVy x b | xorVxVy x b =>
    exact (s.setReg_unchangedBut x _).changesOnly_commit _
  | addVxVy x y | subVxVy x y | shrVxVy x y | subnVxVy x y | shlVxVy x y =>
    exact (s.aluResult_unchangedBut x _ _).changesOnly_commit _
  | random x kk =>
    exact ((s.setDraws_unchangedBut _).trans (State.setReg_unchangedBut _ x _)).changesOnly_commit _
  | readDelayTimer x => exact (s.setReg_unchangedBut x _).changesOnly_commit _
  | loadAddress a | addI a | loadSprite a => exact (s.setI_unchangedBut _).changesOnly_commit _
  | draw x y n =>
    exact ((s.setFb_unchangedBut _).trans (State.setReg_unchangedBut _ regVF _)).changesOnly_checkedAccess _ _
  | skipKeyPressed x | skipKeyNotPressed x | waitKeyPress x => exact raiseIn_changesOnly _ _ s
  | setDelayTimer x => exact (s.setDt_unchangedBut _).changesOnly_commit _
  | setSoundTimer x => exact (s.setSt_unchangedBut _).changesOnly_commit _
  | loadBcd x | storeMemory x => exact (s.setMem_unchangedBut _).changesOnly_checkedAccess _ _
  | readMemory x => exact (s.setRegs_unchangedBut _).changesOnly_checkedAccess _ _

/-- An instruction that changed a part is one that may write it. -/
theorem mem_mayWrite_of_exec {i : Instr} {s t : State} {p : Part} (h : exec i s = .next t) (hp : ¬p.same s t) :
    p ∈ mayWrite i := by
  by_contra hn
  exact hp (exec_changesOnly i s t h p hn)

theorem params_notMem_mayWrite (i : Instr) : Part.params ∉ mayWrite i := by
  cases i <;> simp [mayWrite]

/-- The table of `mayWrite` read by part (R20, R22, R24, R26). -/
theorem name_of_mem_mayWrite (i : Instr) :
    (.index ∈ mayWrite i → i.name ∈ ["load_address", "add_i", "load_sprite"]) ∧
    (.stack ∈ mayWrite i → i.name ∈ ["call", "return"]) ∧
    (.dt ∈ mayWrite i → i.name = "set_delay_timer") ∧
    (.st ∈ mayWrite i → i.name = "set_sound_timer") ∧
    (.fb ∈ mayWrite i → i.name ∈ ["clear", "draw"]) ∧
    (.draws ∈ mayWrite i → i.name = "random") := by
  cases i <;> simp [mayWrite, Instr.name]

/-- Settles O58: every instruction keeps the parts it does not list in `mayWrite`, and that table lists each part
only for the instructions the rules name. -/
theorem eachPartHasItsWriters : Obligations.EachPartHasItsWriters := by
  intro i s t h
  obtain ⟨hindex, hstack, hdt, hst, hfb, hdraws⟩ := name_of_mem_mayWrite i
  have hw {p : Part} (hp : ¬p.same s t) : p ∈ mayWrite i := mem_mayWrite_of_exec h hp
  exact ⟨exec_changesOnly i s t h .params (params_notMem_mayWrite i), fun hc => hindex (hw hc),
    fun hc => hstack (hw hc), fun hc => hdt (hw hc), fun hc => hst (hw hc), fun hc => hfb (hw hc),
    fun hc => hdraws (hw hc)⟩

end Sys2Proof.Machine

namespace Sys2Proof.Machine

/-! ## The memory an instruction may write (R37) -/

section MemoryFrames

variable {s t : State}

/-- Writing bytes leaves every byte outside them as it was. -/
theorem State.setMem_writeBytes_memUnchangedOutside (s : State) (a : Nat) (bs : List Byte) (hm : s.mem.rising) :
    MemUnchangedOutside a bs.length s (s.setMem (Memory.writeBytes s.mem a bs)) := by
  intro b hb
  rw [State.setMem_mem, Memory.read_writeBytes a b bs hm]
  exact dif_neg (by omega)

/-- A checked write at I touches only its own bytes, whether it commits or raises. -/
theorem checkedWrite_memUnchangedOutside {i : Instr} {n : Nat} {bs : List Byte} (hm : Memory.wf s.mem)
    (h : checkedAccess i n s (s.setMem (Memory.writeBytes s.mem (dataAddress s) bs)) = .next t) :
    MemUnchangedOutside (dataAddress s) bs.length s t := by
  obtain ⟨-, hc⟩ | ⟨-, -, hr⟩ := checkedAccess_cases i n s (s.setMem (Memory.writeBytes s.mem (dataAddress s) bs))
  · obtain rfl : State.advance _ = t := Host.Outcome.next.inj (hc.symm.trans h)
    exact s.setMem_writeBytes_memUnchangedOutside (dataAddress s) bs hm.1
  · obtain rfl : s.raise _ _ = t := Host.Outcome.next.inj (hr.symm.trans h)
    exact fun _ _ => rfl

/-- The table of `mayWrite` read for memory. -/
theorem mem_mem_mayWrite {i : Instr} (h : .mem ∈ mayWrite i) : (∃ x, i = .loadBcd x) ∨ ∃ x, i = .storeMemory x := by
  cases i <;> simp_all [mayWrite]

end MemoryFrames

/-- Settles O57: the two writers store their bytes through one checked write at I, and memory is outside what any
other instruction may write. -/
theorem onlyTwoInstructionsWriteMemory : Obligations.OnlyTwoInstructionsWriteMemory := by
  intro i s t hm h
  split
  case h_1 x => exact checkedWrite_memUnchangedOutside (i := .loadBcd x) (bs := bcdDigits (s.reg x)) hm h
  case h_2 x =>
    have hlen : ((regsUpTo x).map s.reg).length = x.val + 1 := by rw [List.length_map, length_regsUpTo]
    exact hlen ▸ checkedWrite_memUnchangedOutside (i := .storeMemory x) hm h
  case h_3 hbcd hstore =>
    refine exec_changesOnly i s t h .mem fun hw => ?_
    obtain ⟨x, hx⟩ | ⟨x, hx⟩ := mem_mem_mayWrite hw
    · exact hbcd x hx
    · exact hstore x hx

end Sys2Proof.Machine

namespace Sys2Proof

/-! ## The decoder answers with the row that covers the word (R51, R52) -/

/-- Two rows that no word matches both: their opcodes differ in a bit that both masks fix. -/
abbrev Descriptor.Apart (d e : Descriptor) : Prop := d.opcode &&& e.mask ≠ e.opcode &&& d.mask

theorem Descriptor.covers_iff {d : Descriptor} {w : Word} : d.covers w = true ↔ w &&& d.mask = d.opcode := beq_iff_eq

theorem Descriptor.Apart.not_covers {d e : Descriptor} {w : Word} (h : d.Apart e) (he : e.covers w = true) :
    d.covers w ≠ true := by
  intro hd
  apply h
  calc d.opcode &&& e.mask
      = w &&& d.mask &&& e.mask := by rw [covers_iff.1 hd]
    _ = w &&& e.mask &&& d.mask := by rw [BitVec.and_assoc, BitVec.and_comm d.mask, BitVec.and_assoc]
    _ = e.opcode &&& d.mask := by rw [covers_iff.1 he]

theorem catalog_pairwise_apart : catalog.Pairwise Descriptor.Apart := by decide

/-- The catalog's order does not matter: any row that covers a word is the row the decoder finds. -/
theorem decode_eq_of_covers {d : Descriptor} {w : Word} (hd : d ∈ catalog) (hw : d.covers w = true) :
    decode w = .ok (d.form.build w) := by
  obtain ⟨before, after, hsplit⟩ := List.append_of_mem hd
  have hrows := catalog_pairwise_apart
  rw [hsplit, List.pairwise_append] at hrows
  obtain ⟨-, -, hapart⟩ := hrows
  have hbefore : ∀ e ∈ before, e.covers w ≠ true := fun e he => (hapart e he d List.mem_cons_self).not_covers hw
  have hfind : catalog.find? (fun e => e.covers w) = some d :=
    List.find?_eq_some_iff_append.2 ⟨hw, before, after, hsplit, by simpa using hbefore⟩
  rw [decode, hfind]

/-- Every instruction has its row in the catalog. -/
theorem Laws.catalogRow : ∀ i : Instr, CatalogRow.Statement i
  | .clear => CatalogRow.clear
  | .ret => CatalogRow.ret
  | .jump nnn => CatalogRow.jump nnn
  | .call nnn => CatalogRow.call nnn
  | .skipEqual x kk => CatalogRow.skipEqual x kk
  | .skipNotEqual x kk => CatalogRow.skipNotEqual x kk
  | .skipEqualRegister x y => CatalogRow.skipEqualRegister x y
  | .loadByteToVx x kk => CatalogRow.loadByteToVx x kk
  | .addByteToVx x kk => CatalogRow.addByteToVx x kk
  | .setVxToVy x y => CatalogRow.setVxToVy x y
  | .orVxVy x y => CatalogRow.orVxVy x y
  | .andVxVy x y => CatalogRow.andVxVy x y
  | .xorVxVy x y => CatalogRow.xorVxVy x y
  | .addVxVy x y => CatalogRow.addVxVy x y
  | .subVxVy x y => CatalogRow.subVxVy x y
  | .shrVxVy x y => CatalogRow.shrVxVy x y
  | .subnVxVy x y => CatalogRow.subnVxVy x y
  | .shlVxVy x y => CatalogRow.shlVxVy x y
  | .skipNotEqualRegister x y => CatalogRow.skipNotEqualRegister x y
  | .loadAddress nnn => CatalogRow.loadAddress nnn
  | .jumpOffset nnn => CatalogRow.jumpOffset nnn
  | .random x kk => CatalogRow.random x kk
  | .draw x y n => CatalogRow.draw x y n
  | .skipKeyPressed x => CatalogRow.skipKeyPressed x
  | .skipKeyNotPressed x => CatalogRow.skipKeyNotPressed x
  | .readDelayTimer x => CatalogRow.readDelayTimer x
  | .waitKeyPress x => CatalogRow.waitKeyPress x
  | .setDelayTimer x => CatalogRow.setDelayTimer x
  | .setSoundTimer x => CatalogRow.setSoundTimer x
  | .addI x => CatalogRow.addI x
  | .loadSprite x => CatalogRow.loadSprite x
  | .loadBcd x => CatalogRow.loadBcd x
  | .storeMemory x => CatalogRow.storeMemory x
  | .readMemory x => CatalogRow.readMemory x

/-- Its own row covers an instruction's word, so that row is the decoder's answer. -/
@[simp] theorem decode_encode (i : Instr) : decode (encode i) = .ok i := by
  obtain ⟨d, hd, -, -, hcovers, hbuild⟩ := Laws.catalogRow i
  rw [decode_eq_of_covers hd hcovers, hbuild]

/-! ## The argument descriptors read back what a pattern placed (R48, R50) -/

theorem addr_extract_wordAddr (o : Nibble) (nnn : Addr12) :
    Format.addr.argSpecs.map (fun a => a.extract (wordAddr o nnn)) = [nnn.toNat] := by
  have hnnn : argNnn.extract (wordAddr o nnn) = nnn.toNat := by
    rw [extract_nnn, wordAddr_toNat]
    omega
  simp [Format.argSpecs, hnnn]

theorem extract_x_wordXkk (o : Nibble) (x : RegIdx) (kk : Byte) : argX.extract (wordXkk o x kk) = x.val := by
  rw [extract_x, wordXkk_toNat]
  omega

theorem xkk_extract_wordXkk (o : Nibble) (x : RegIdx) (kk : Byte) :
    Format.xkk.argSpecs.map (fun a => a.extract (wordXkk o x kk)) = [x.val, kk.toNat] := by
  have hkk : argKk.extract (wordXkk o x kk) = kk.toNat := by
    rw [extract_kk, wordXkk_toNat]
    omega
  simp [Format.argSpecs, extract_x_wordXkk, hkk]

theorem x_extract_wordXkk (o : Nibble) (x : RegIdx) (kk : Byte) :
    Format.x.argSpecs.map (fun a => a.extract (wordXkk o x kk)) = [x.val] := by
  simp [Format.argSpecs, extract_x_wordXkk]

theorem extract_x_wordXyn (o : Nibble) (x y : RegIdx) (n : Nibble) : argX.extract (wordXyn o x y n) = x.val := by
  rw [extract_x, wordXyn_toNat]
  omega

theorem extract_y_wordXyn (o : Nibble) (x y : RegIdx) (n : Nibble) : argY.extract (wordXyn o x y n) = y.val := by
  rw [extract_y, wordXyn_toNat]
  omega

theorem xy_extract_wordXyn (o : Nibble) (x y : RegIdx) (n : Nibble) :
    Format.xy.argSpecs.map (fun a => a.extract (wordXyn o x y n)) = [x.val, y.val] := by
  simp [Format.argSpecs, extract_x_wordXyn, extract_y_wordXyn]

theorem xyn_extract_wordXyn (o : Nibble) (x y : RegIdx) (n : Nibble) :
    Format.xyn.argSpecs.map (fun a => a.extract (wordXyn o x y n)) = [x.val, y.val, n.toNat] := by
  have hn : argN.extract (wordXyn o x y n) = n.toNat := by
    rw [extract_n, wordXyn_toNat]
    omega
  simp [Format.argSpecs, extract_x_wordXyn, extract_y_wordXyn, hn]

/-- The descriptors of an instruction's format extract its argument values from its word: one case per format. -/
theorem extract_encode (i : Instr) : i.format.argSpecs.map (fun a => a.extract (encode i)) = i.args := by
  cases i with
  | clear | ret => rfl
  | jump nnn | call nnn | loadAddress nnn | jumpOffset nnn => exact addr_extract_wordAddr _ nnn
  | skipEqual x kk | skipNotEqual x kk | loadByteToVx x kk | addByteToVx x kk | random x kk =>
    exact xkk_extract_wordXkk _ x kk
  | skipEqualRegister x y | skipNotEqualRegister x y | setVxToVy x y | orVxVy x y | andVxVy x y | xorVxVy x y
  | addVxVy x y | subVxVy x y | shrVxVy x y | subnVxVy x y | shlVxVy x y => exact xy_extract_wordXyn _ x y _
  | draw x y n => exact xyn_extract_wordXyn _ x y n
  | skipKeyPressed x | skipKeyNotPressed x | readDelayTimer x | waitKeyPress x | setDelayTimer x | setSoundTimer x
  | addI x | loadSprite x | loadBcd x | storeMemory x | readMemory x => exact x_extract_wordXkk _ x _

/-- Settles O3: no two rows of the catalog share a word, so the decoder answers with the instruction's own row; and
each format's descriptors read back what its pattern placed. -/
theorem decodeOfEncode : Obligations.DecodeOfEncode := fun i => ⟨decode_encode i, extract_encode i⟩

/-! ## Two bytes, most significant first (R35, R45) -/

theorem highByte_toNat (w : Word) : (highByte w).toNat = w.toNat / 256 := by
  have hw := w.isLt
  rw [highByte, BitVec.extractLsb'_toNat, Nat.shiftRight_eq_div_pow]
  omega

theorem lowByte_toNat (w : Word) : (lowByte w).toNat = w.toNat % 256 := by
  rw [lowByte, BitVec.extractLsb'_toNat, Nat.shiftRight_zero]

theorem decodeBytes_of_decode {hi lo : Byte} {i : Instr} (h : decode (joinBytes hi lo) = .ok i) (rest : List Byte) :
    decodeBytes (hi :: lo :: rest) = .ok (i, rest) := by
  rw [decodeBytes, h]

/-- Settles O7: the two bytes of a word join to it again, and its instruction is what that word decodes to. -/
theorem byteStreamDecodesBigEndian : Obligations.ByteStreamDecodesBigEndian := by
  refine ⟨joinBytes_toNat, fun i rest => ⟨?_, ?_⟩⟩
  · rw [encodeBytes, List.map_cons, List.map_singleton, highByte_toNat, lowByte_toNat]
  · have hword : decode (joinBytes (highByte (encode i)) (lowByte (encode i))) = .ok i := by
      rw [joinBytes_split, decode_encode]
    exact decodeBytes_of_decode hword rest

end Sys2Proof

namespace Sys2Proof

/-! ## A word is its row's opcode with the word's own fields placed (R48, R54) -/

/-- Bits 15 to 12, which no argument of R48 lies in. -/
def fieldOp (w : Word) : Nibble := w.extractLsb' 12 4

theorem fieldOp_toNat (w : Word) : (fieldOp w).toNat = w.toNat / 0x1000 := by
  have hw := w.isLt
  rw [fieldOp, BitVec.extractLsb'_toNat, Nat.shiftRight_eq_div_pow]
  omega

@[simp] theorem wordAddr_fields (w : Word) : wordAddr (fieldOp w) (fieldNnn w) = w := by
  have hw := w.isLt
  apply BitVec.eq_of_toNat_eq
  rw [wordAddr_toNat, fieldOp_toNat, fieldNnn, extract_nnn, BitVec.toNat_ofNat]
  omega

@[simp] theorem wordXkk_fields (w : Word) : wordXkk (fieldOp w) (fieldX w) (fieldKk w) = w := by
  have hw := w.isLt
  apply BitVec.eq_of_toNat_eq
  rw [wordXkk_toNat, fieldOp_toNat, fieldX, extract_x, fieldKk, extract_kk, Fin.val_ofNat, BitVec.toNat_ofNat]
  omega

@[simp] theorem wordXyn_fields (w : Word) : wordXyn (fieldOp w) (fieldX w) (fieldY w) (fieldN w) = w := by
  have hw := w.isLt
  apply BitVec.eq_of_toNat_eq
  rw [wordXyn_toNat, fieldOp_toNat, fieldX, extract_x, fieldY, extract_y, fieldN, extract_n, Fin.val_ofNat,
    Fin.val_ofNat, BitVec.toNat_ofNat]
  omega

/-! ### A mask keeps the fields that it covers whole -/

theorem fieldOp_and (w m : Word) (hm : fieldOp m = BitVec.allOnes 4) : fieldOp (w &&& m) = fieldOp w := by
  rw [fieldOp] at hm
  rw [fieldOp, BitVec.extractLsb'_and, hm, BitVec.and_allOnes, fieldOp]

@[simp] theorem fieldOp_and_mask (w : Word) (f : Format) : fieldOp (w &&& f.mask) = fieldOp w :=
  fieldOp_and w f.mask (by cases f <;> rfl)

@[simp] theorem fieldN_and_mask_xy (w : Word) : fieldN (w &&& Format.xy.mask) = fieldN w := by
  have hmask : Format.xy.mask &&& argN.bitmask = argN.bitmask := by decide
  rw [fieldN, ArgSpec.extract, BitVec.and_assoc, hmask, fieldN, ArgSpec.extract]

@[simp] theorem fieldKk_and_mask_x (w : Word) : fieldKk (w &&& Format.x.mask) = fieldKk w := by
  have hmask : Format.x.mask &&& argKk.bitmask = argKk.bitmask := by decide
  rw [fieldKk, ArgSpec.extract, BitVec.and_assoc, hmask, fieldKk, ArgSpec.extract]

/-! ### The instruction a row builds encodes to the word it was built from -/

/-- The encoder places a row's arguments in the fixed bits of the row's opcode: the pattern column of R53. -/
def Descriptor.EncodesAsPattern (d : Descriptor) : Prop :=
  match d.form with
  | .none i => encode i = d.opcode
  | .addr f => ∀ nnn, encode (f nnn) = wordAddr (fieldOp d.opcode) nnn
  | .xkk f => ∀ x kk, encode (f x kk) = wordXkk (fieldOp d.opcode) x kk
  | .xy f => ∀ x y, encode (f x y) = wordXyn (fieldOp d.opcode) x y (fieldN d.opcode)
  | .xyn f => ∀ x y n, encode (f x y n) = wordXyn (fieldOp d.opcode) x y n
  | .x f => ∀ x, encode (f x) = wordXkk (fieldOp d.opcode) x (fieldKk d.opcode)

theorem catalog_encodesAsPattern : ∀ d ∈ catalog, d.EncodesAsPattern := by
  simp only [catalog, catalogLow, catalogAlu, catalogHigh, catalogF, List.forall_mem_append, List.forall_mem_cons,
    List.not_mem_nil, false_imp_iff, implies_true, and_true, Descriptor.EncodesAsPattern]
  and_intros <;> intros <;> rfl

/-- A covered word agrees with the row's opcode in the fixed bits, and `build` keeps the others: one case per format. -/
theorem Descriptor.encode_build {d : Descriptor} {w : Word} (hd : d.EncodesAsPattern) (hw : d.covers w = true) :
    encode (d.form.build w) = w := by
  have hopcode : d.opcode = w &&& d.form.format.mask := (covers_iff.1 hw).symm
  have hop : fieldOp d.opcode = fieldOp w := by rw [hopcode, fieldOp_and_mask]
  unfold EncodesAsPattern at hd
  split at hd
  case h_1 i hform =>
    have hall : (RowForm.none i).format.mask = BitVec.allOnes 16 := rfl
    rw [hform, RowForm.build, hd, hopcode, hform, hall, BitVec.and_allOnes]
  case h_2 f hform => rw [hform, RowForm.build, hd, hop, wordAddr_fields]
  case h_3 f hform => rw [hform, RowForm.build, hd, hop, wordXkk_fields]
  case h_4 f hform =>
    have hn : fieldN d.opcode = fieldN w := by rw [hopcode, hform, RowForm.format, fieldN_and_mask_xy]
    rw [hform, RowForm.build, hd, hop, hn, wordXyn_fields]
  case h_5 f hform => rw [hform, RowForm.build, hd, hop, wordXyn_fields]
  case h_6 f hform =>
    have hkk : fieldKk d.opcode = fieldKk w := by rw [hopcode, hform, RowForm.format, fieldKk_and_mask_x]
    rw [hform, RowForm.build, hd, hop, hkk, wordXkk_fields]

/-- The decoder's answer is built by a row of the catalog that covers the word. -/
theorem exists_covers_of_decode {w : Word} {i : Instr} (h : decode w = .ok i) :
    ∃ d ∈ catalog, d.covers w = true ∧ d.form.build w = i := by
  unfold decode at h
  split at h
  case h_1 d hfind =>
    have hcovers := List.find?_some hfind
    exact ⟨d, List.mem_of_find?_eq_some hfind, hcovers, Except.ok.inj h⟩
  case h_2 => cases h

/-- No bit of a word that decodes is dropped. -/
theorem encode_of_decode {w : Word} {i : Instr} (h : decode w = .ok i) : encode i = w := by
  obtain ⟨d, hd, hcovers, hbuild⟩ := exists_covers_of_decode h
  rw [← hbuild, Descriptor.encode_build (catalog_encodesAsPattern d hd) hcovers]

/-- A word that no row matches is the decoder's error `UnknownInstruction` (R51). -/
theorem decode_of_not_covered {w : Word} (h : ∀ d ∈ catalog, w &&& d.mask ≠ d.opcode) :
    decode w = .error (.unknownInstruction w) := by
  have hfind : catalog.find? (fun d => d.covers w) = none :=
    List.find?_eq_none.2 fun d hd hw => h d hd (Descriptor.covers_iff.1 hw)
  rw [decode, hfind]

end Sys2Proof

namespace Sys2Proof.Machine

/-! ## What a step does, by what is fetched and decoded (R64, R69) -/

section Step

variable {s t : State}

theorem step_of_decode {w : Word} {i : Instr} (hfault : s.fault = none) (hfetch : fetch s = some w)
    (hdecode : decode w = .ok i) : step s = exec i s := by
  simp only [step, hfault, hfetch, hdecode]

theorem step_of_decode_error {w : Word} {e : DecodeError} (hfault : s.fault = none) (hfetch : fetch s = some w)
    (hdecode : decode w = .error e) : step s = .next (s.raise .unknownInstruction (some w)) := by
  simp only [step, hfault, hfetch, hdecode, raiseDecode]

theorem hostStep_of_next (h : step s = .next t) : hostStep s = (t, t.fault) := by
  rw [hostStep, h]

@[simp] theorem State.raise_fault (s : State) (k : ErrorKind) (w : Option Word) :
    (s.raise k w).fault = some ⟨k, w, s.pc⟩ := rfl

theorem State.raise_unchangedBut (s : State) (k : ErrorKind) (w : Option Word) :
    UnchangedBut [.fault] s (s.raise k w) :=
  s.setFault_unchangedBut _

/-! ### The two answers of `return` and of `call` (R74, R75) -/

theorem execRet_of_pos (h : 0 < s.depth.val) :
    execRet s = .next ((s.setStack s.stack ⟨s.depth.val - 1, by omega⟩).setPc s.stack[s.depth.val - 1]) := by
  simp only [execRet, s.pop_of_pos h, commit]

theorem execRet_of_empty (h : ¬0 < s.depth.val) :
    execRet s = .next (s.raise .stackUnderflow (some (encode .ret))) := by
  rw [execRet, s.pop_of_empty h, raiseIn]

theorem execCall_of_lt (nnn : Addr12) (h : s.depth.val < 16) :
    execCall nnn s = .next ((s.setStack (s.stack.set s.depth.val (s.pc + 2#16)) ⟨s.depth.val + 1, by omega⟩).setPc
      (targetOf nnn)) := by
  simp only [execCall, s.push_of_lt _ h, commit]

theorem execCall_of_full (nnn : Addr12) (h : ¬s.depth.val < 16) :
    execCall nnn s = .next (s.raise .stackOverflow (some (encode (.call nnn)))) := by
  rw [execCall, s.push_of_full _ h, raiseIn]

/-! ### An instruction keeps the latch or raises (R69) -/

theorem checkedAccess_keepsFault_or_raises {i : Instr} {n : Nat} {u : State} (h : checkedAccess i n s u = .next t)
    (hu : u.fault = s.fault) : t.fault = s.fault ∨ ∃ k, t = s.raise k (some (encode i)) := by
  obtain ⟨-, hc⟩ | ⟨-, -, hr⟩ := checkedAccess_cases i n s u
  · obtain rfl : u.advance = t := Host.Outcome.next.inj (hc.symm.trans h)
    exact .inl hu
  · exact .inr ⟨_, Host.Outcome.next.inj (h.symm.trans hr)⟩

/-- An instruction that answers a next state either leaves the latch alone or has done nothing but raise an error with
its own word (R69, R122). -/
theorem exec_keepsFault_or_raises {i : Instr} (h : exec i s = .next t) :
    t.fault = s.fault ∨ ∃ k, t = s.raise k (some (encode i)) := by
  cases i with
  | ret =>
    by_cases hd : 0 < s.depth.val
    · exact .inl (Host.Outcome.next.inj (h.symm.trans (execRet_of_pos hd)) ▸ rfl)
    · exact .inr ⟨_, Host.Outcome.next.inj (h.symm.trans (execRet_of_empty hd))⟩
  | call nnn =>
    by_cases hd : s.depth.val < 16
    · exact .inl (Host.Outcome.next.inj (h.symm.trans (execCall_of_lt nnn hd)) ▸ rfl)
    · exact .inr ⟨_, Host.Outcome.next.inj (h.symm.trans (execCall_of_full nnn hd))⟩
  | draw x y n | loadBcd x | storeMemory x | readMemory x => exact checkedAccess_keepsFault_or_raises h rfl
  | skipKeyPressed x | skipKeyNotPressed x | waitKeyPress x => exact .inr ⟨_, (Host.Outcome.next.inj h).symm⟩
  | _ => exact .inl (exec_changesOnly _ s t h .fault (by simp [mayWrite]))

/-- A step that ends with the latch set has raised an error with the fetched word, and nothing else: the fetch, the
decoder or the instruction raised it. -/
theorem exists_raise_of_step (h : step s = .next t) (hfault : t.fault ≠ none) : ∃ k, t = s.raise k (fetch s) := by
  obtain ⟨hnone, ⟨hfetch, rfl⟩ | ⟨w, e, hfetch, -, rfl⟩ | ⟨w, i, hfetch, hdecode, hexec⟩⟩ := step_cases h
  · exact ⟨_, by rw [hfetch]⟩
  · exact ⟨_, by rw [hfetch]⟩
  · obtain hkept | ⟨k, rfl⟩ := exec_keepsFault_or_raises hexec
    · exact absurd (hkept.trans hnone) hfault
    · exact ⟨k, by rw [hfetch, encode_of_decode hdecode]⟩

end Step

/-- Settles O8: the fetch joins the two bytes to the word, and the step executes what it decodes to. -/
theorem stepRunsTheDecodedInstruction : Obligations.StepRunsTheDecodedInstruction := by
  intro s w i hfault hpc hw hdecode
  have hjoin : joinBytes (Memory.read s.mem s.pc.toNat) (Memory.read s.mem (s.pc.toNat + 1)) = w :=
    BitVec.eq_of_toNat_eq ((joinBytes_toNat _ _).trans hw.symm)
  have hfetch : fetch s = some w := by rw [fetch_eq, if_pos hpc, hjoin]
  exact step_of_decode hfault hfetch hdecode

/-- Settles O11: the decoder finds no row, so the step raises. -/
theorem unknownWordRaises : Obligations.UnknownWordRaises := fun s _ hfault hfetch hrows =>
  ⟨_, step_of_decode_error hfault hfetch (decode_of_not_covered hrows), s.raise_fault _ _, s.raise_unchangedBut _ _⟩

/-- Settles O13: a step that ends with the latch set is one `raise` with the fetched word, which writes the latch
alone. -/
theorem failingStepChangesOnlyTheLatch : Obligations.FailingStepChangesOnlyTheLatch := by
  intro s t h hfault
  obtain ⟨k, rfl⟩ := exists_raise_of_step h hfault
  exact ⟨s.raise_unchangedBut _ _, k, s.raise_fault _ _, hostStep_of_next h⟩

end Sys2Proof.Machine

namespace Sys2Proof.Machine

/-! ## Control flow (R73 to R81) -/

section ControlFlow

variable {s t : State} {i : Instr}

/-- An error's entry, as the statements say it (R69, R122). -/
theorem raises_of_exec {k : ErrorKind} (h : exec i s = .next (s.raise k (some (encode i)))) : Raises i s k :=
  ⟨_, h, s.raise_fault _ _, s.raise_unchangedBut _ _⟩

theorem UnchangedBut.fault_eq {ps : List Part} (h : UnchangedBut ps s t) (hp : .fault ∉ ps) : t.fault = s.fault :=
  h .fault hp

/-! ### The stack pointer and the depth that holds it (R23) -/

theorem State.sp_lt_iff (s : State) : s.sp < 15 ↔ s.depth.val < 16 := by
  rw [State.sp]
  omega

theorem State.sp_nonneg_iff (s : State) : 0 ≤ s.sp ↔ 0 < s.depth.val := by
  rw [State.sp]
  omega

@[simp] theorem State.setStack_sp (s : State) (k : Vector Word 16) (d : Fin 17) :
    (s.setStack k d).sp = (d.val : Int) - 1 := rfl

/-- A stack with room has a slot above its top. -/
theorem State.exists_slot_above (s : State) (h : s.sp < 15) : ∃ k : Fin 16, (k.val : Int) = s.sp + 1 :=
  ⟨⟨s.depth.val, s.sp_lt_iff.1 h⟩, by simp [State.sp]⟩

/-! ### `call` and `return` (R74, R75) -/

theorem call_completes (nnn : Addr12) (h : s.sp < 15) :
    Completes (.call nnn) s fun t =>
      t.sp = s.sp + 1 ∧ t.pc.toNat = nnn.toNat ∧
      (∀ k : Fin 16, t.stack[k] = if (k.val : Int) = s.sp + 1 then s.pc + 2#16 else s.stack[k]) ∧
      UnchangedBut [.pc, .stack] s t := by
  refine ⟨_, execCall_of_lt nnn (s.sp_lt_iff.1 h), ?_, targetOf_toNat nnn, fun k => ?_,
    (s.setStack_unchangedBut _ _).setPc _⟩
  · simp only [State.setPc_sp, State.setStack_sp]
    rw [State.sp]
    omega
  · have hslot : (k.val : Int) = s.sp + 1 ↔ s.depth.val = k.val := by rw [State.sp]; omega
    simp only [State.setPc_stack, State.setStack_stack, Fin.getElem_fin, Vector.getElem_set, hslot]

theorem call_raises (nnn : Addr12) (h : 15 ≤ s.sp) : Raises (.call nnn) s .stackOverflow :=
  raises_of_exec (execCall_of_full nnn fun hd => absurd (s.sp_lt_iff.2 hd) (by omega))

theorem ret_completes (h : 0 ≤ s.sp) :
    Completes .ret s fun t =>
      t.sp = s.sp - 1 ∧ (∀ k : Fin 16, (k.val : Int) = s.sp → t.pc = s.stack[k]) ∧
      (∀ k : Fin 16, t.stack[k] = s.stack[k]) ∧ UnchangedBut [.pc, .stack] s t := by
  have hpos := s.sp_nonneg_iff.1 h
  refine ⟨_, execRet_of_pos hpos, ?_, fun k hk => ?_, fun _ => rfl, (s.setStack_unchangedBut _ _).setPc _⟩
  · simp only [State.setPc_sp, State.setStack_sp]
    rw [State.sp]
    omega
  · have htop : k.val = s.depth.val - 1 := by rw [State.sp] at hk; omega
    simp only [State.setPc_pc, Fin.getElem_fin, htop]

theorem ret_raises (h : s.sp = -1) : Raises .ret s .stackUnderflow :=
  raises_of_exec (execRet_of_empty fun hd => absurd (s.sp_nonneg_iff.2 hd) (by omega))

/-! ### Runs of several instructions -/

theorem runAll_cons_of_next {is : List Instr} (h : exec i s = .next t) (hfault : t.fault = none) :
    runAll (i :: is) s = runAll is t := by
  simp only [runAll, h, hfault, if_true]

/-- While the stack has room, calls in a row complete, and each raises SP by one. -/
theorem runAll_calls (targets : List Addr12) (hfault : s.fault = none) (hroom : s.sp + targets.length ≤ 15) :
    ∃ t, runAll (targets.map Instr.call) s = some t ∧ t.sp = s.sp + targets.length := by
  induction targets generalizing s with
  | nil => exact ⟨s, rfl, by simp⟩
  | cons nnn targets ih =>
    rw [List.length_cons] at hroom
    obtain ⟨u, hcall, hsp, -, -, hframe⟩ := call_completes (s := s) nnn (by omega)
    have hu : u.fault = none := (hframe.fault_eq (by simp)).trans hfault
    obtain ⟨t, hrun, ht⟩ := ih hu (by omega)
    refine ⟨t, (runAll_cons_of_next hcall hu).trans hrun, ?_⟩
    rw [ht, hsp, List.length_cons]
    omega

/-! ### Skips (R78 to R81) -/

theorem State.skipIf_unchangedBut (s : State) (c : Bool) : UnchangedBut [.pc] s (s.skipIf c) :=
  s.setPc_unchangedBut _

/-- A skip whose Boolean condition says `p` goes four on when `p` holds and two on otherwise. -/
theorem skip_completes {c : Bool} {p : Prop} [Decidable p] (h : exec i s = .next (s.skipIf c)) (hc : c = true ↔ p) :
    Completes i s fun t => t.pc = (if p then s.pc + 4#16 else s.pc + 2#16) ∧ UnchangedBut [.pc] s t :=
  ⟨_, h, if_congr hc rfl rfl, s.skipIf_unchangedBut c⟩

theorem State.reg_eq_iff (s : State) (x y : RegIdx) :
    s.reg x = s.reg y ↔ x = y ∨ (s.reg x).toNat = (s.reg y).toNat := by
  rw [← BitVec.toNat_inj]
  exact ⟨.inr, fun h => h.elim (fun hxy => by rw [hxy]) id⟩

end ControlFlow

/-- Settles O28: with room the push is a write of the next slot, and on a full stack it is refused before anything is
written. -/
theorem callPushesTheReturnAddress : Obligations.CallPushesTheReturnAddress :=
  fun _ nnn => ⟨call_completes nnn, call_raises nnn⟩

/-- Settles O29: the pop reads the top slot and moves only SP, and on an empty stack it is refused. -/
theorem returnPopsTheReturnAddress : Obligations.ReturnPopsTheReturnAddress :=
  fun _ => ⟨ret_completes, ret_raises⟩

/-- Settles O30: the slot that `return` reads is the one that `call` wrote, and it lies above every slot in use. -/
theorem returnUndoesCall : Obligations.ReturnUndoesCall := by
  intro s nnn hfault hroom
  obtain ⟨top, htop⟩ := s.exists_slot_above hroom
  obtain ⟨u, hcall, husp, -, hustack, huframe⟩ := call_completes nnn hroom
  obtain ⟨t, hret, htsp, htpc, htstack, htframe⟩ := ret_completes (s := u) (by omega)
  have hu : u.fault = none := (huframe.fault_eq (by simp)).trans hfault
  have ht : t.fault = none := (htframe.fault_eq (by simp)).trans hu
  refine ⟨t, (runAll_cons_of_next hcall hu).trans (runAll_cons_of_next hret ht), ?_, by omega, fun k hk => ?_,
    (huframe.trans htframe).mono (by simp)⟩
  · rw [htpc top (htop.trans husp.symm), hustack, if_pos htop]
  · rw [htstack, hustack, if_neg (by omega)]

/-- Settles O31: each of the calls finds room, and after 16 the stack is full. -/
theorem sixteenCallsThenOverflow : Obligations.SixteenCallsThenOverflow := by
  intro s targets nnn hfault hsp hlen
  obtain ⟨t, hrun, ht⟩ := runAll_calls targets hfault (by omega)
  exact ⟨t, hrun, by omega, fun hfull => call_raises nnn (by omega)⟩

/-- Settles O26: `jump` is one write of PC. -/
theorem jumpSetsPc : Obligations.JumpSetsPc :=
  fun s nnn => ⟨_, rfl, targetOf_toNat nnn, s.setPc_unchangedBut _⟩

/-- Settles O33: both are skips on the comparison of two registers, which agree when they are one. -/
theorem registerSkipsCompareTwoRegisters : Obligations.RegisterSkipsCompareTwoRegisters := by
  intro s x y
  have heq : (s.reg x == s.reg y) = true ↔ x = y ∨ (s.reg x).toNat = (s.reg y).toNat :=
    beq_iff_eq.trans (s.reg_eq_iff x y)
  have hne : (s.reg x != s.reg y) = true ↔ ¬(x = y ∨ (s.reg x).toNat = (s.reg y).toNat) :=
    bne_iff_ne.trans (s.reg_eq_iff x y).not
  refine ⟨skip_completes rfl heq, ?_⟩
  simpa only [ite_not] using skip_completes (i := .skipNotEqualRegister x y) rfl hne

end Sys2Proof.Machine

namespace Sys2Proof.Machine

/-! ## Register load, logic and random (R84 to R89, R95): the instructions that write Vx and no flag -/

section RegisterWrites

variable {s : State} {i : Instr} {x : RegIdx}

theorem State.setReg_regsUnchangedBut (s : State) (x : RegIdx) (b : Byte) : RegsUnchangedBut [x] s (s.setReg x b) :=
  fun q hq => s.reg_setReg_of_ne x q b (List.ne_of_not_mem_cons hq)

theorem State.setReg_advance_regEffect (s : State) (x : RegIdx) (b : Byte) :
    RegEffect x b.toNat s (s.setReg x b).advance :=
  ⟨congrArg BitVec.toNat (s.reg_setReg_self x b), s.setReg_regsUnchangedBut x b, rfl,
    ((s.setReg_unchangedBut x b).setPc _).mono (by simp)⟩

/-- An instruction whose whole work is one register write has the register effect of the number it writes. -/
theorem setReg_completes {b : Byte} {n : Nat} (h : exec i s = .next (s.setReg x b).advance) (hb : b.toNat = n) :
    Completes i s (RegEffect x n s) :=
  ⟨_, h, hb ▸ s.setReg_advance_regEffect x b⟩

end RegisterWrites

/-- Settles O34: the byte is the one register write. -/
theorem loadByteWritesVx : Obligations.LoadByteWritesVx :=
  fun _ _ _ => setReg_completes rfl rfl

/-- Settles O35: the sum of two bytes is taken modulo 256, and it is the one register write, so that VF keeps its value
unless x = 15. -/
theorem addByteWrapsWithoutCarry : Obligations.AddByteWrapsWithoutCarry :=
  fun s x kk => setReg_completes rfl (BitVec.toNat_add (s.reg x) kk)

/-- Settles O36: the value of Vy is the one register write. -/
theorem setCopiesVy : Obligations.SetCopiesVy :=
  fun _ _ _ => setReg_completes rfl rfl

/-- Settles O37: each is one register write, of the bitwise combination of the two numbers. -/
theorem logicCombinesVxAndVy : Obligations.LogicCombinesVxAndVy :=
  fun s x y =>
    ⟨setReg_completes rfl (BitVec.toNat_or (s.reg x) (s.reg y)),
      setReg_completes rfl (BitVec.toNat_and (s.reg x) (s.reg y)),
      setReg_completes rfl (BitVec.toNat_xor (s.reg x) (s.reg y))⟩

/-- Settles O41: after the count has advanced, the masked draw is one register write, and an AND is at most its mask. -/
theorem randomMasksOneFreshDraw : Obligations.RandomMasksOneFreshDraw := by
  intro s x kk
  obtain ⟨hx, hregs, hpc, hframe⟩ :=
    (s.setDraws (s.draws + 1)).setReg_advance_regEffect x (Config.rand8 s.draws &&& kk)
  rw [BitVec.toNat_and] at hx
  exact ⟨_, rfl, hx, rfl, hx.trans_le Nat.and_le_right, hregs, hpc,
    ((s.setDraws_unchangedBut _).trans hframe).mono (by simp)⟩

end Sys2Proof.Machine

namespace Sys2Proof.Machine

/-! ## Index-register addressing (R97 to R99): the instructions that write I -/

/-- An instruction whose whole work is one write of I completes with the number it writes. -/
theorem setI_completes {s : State} {i : Instr} {a : Word} {n : Nat} (h : exec i s = .next (s.setI a).advance)
    (ha : a.toNat = n) :
    Completes i s fun t => t.iReg.toNat = n ∧ t.pc = s.pc + 2#16 ∧ UnchangedBut [.index, .pc] s t :=
  ⟨_, h, ha, rfl, ((s.setI_unchangedBut a).setPc _).mono (by simp)⟩

/-- Settles O42: the address, extended to 16 bits, is the one write of I. -/
theorem loadAddressWritesI : Obligations.LoadAddressWritesI :=
  fun _ nnn => setI_completes rfl (targetOf_toNat nnn)

end Sys2Proof.Machine

namespace Sys2Proof.Machine

/-! ## Memory transfer (R100 to R103): the instructions that move bytes at I -/

section MemoryTransfer

variable {s : State} {i : Instr} {n : Nat}

/-- Reading at an offset inside bytes just written. -/
theorem Memory.read_writeBytes_add {m : Memory} (a : Nat) {k : Nat} (bs : List Byte) (hm : m.rising)
    (hk : k < bs.length) : Memory.read (Memory.writeBytes m a bs) (a + k) = bs[k] := by
  have hin : a ≤ a + k ∧ a + k - a < bs.length := by omega
  rw [Memory.read_writeBytes a (a + k) bs hm, dif_pos hin]
  simp only [Nat.add_sub_cancel_left]

/-! ### The two answers of a checked access, as the statements say them -/

theorem checkedAccess_raises {u : State} (h : exec i s = checkedAccess i (n + 1) s u)
    (hout : 0xFFF < s.iReg.toNat + n) : Raises i s .indexOutOfBounds :=
  raises_of_exec (h.trans (checkedAccess_of_gt n.succ_pos hout))

/-- An instruction that writes a list of bytes at I, all of them inside memory, puts each at its offset. -/
theorem checkedWrite_completes {bs : List Byte} (hm : Memory.wf s.mem) (hlen : bs.length = n + 1)
    (h : exec i s = checkedAccess i (n + 1) s (s.setMem (Memory.writeBytes s.mem (dataAddress s) bs)))
    (hin : s.iReg.toNat + n ≤ 0xFFF) :
    Completes i s fun t =>
      (∀ k (hk : k < bs.length), Memory.read t.mem (s.iReg.toNat + k) = bs[k]) ∧
      MemUnchangedOutside s.iReg.toNat (n + 1) s t ∧ t.pc = s.pc + 2#16 ∧ UnchangedBut [.mem, .pc] s t :=
  ⟨_, h.trans (checkedAccess_of_le (.inr hin)), fun _ hk => Memory.read_writeBytes_add _ bs hm.1 hk,
    hlen ▸ s.setMem_writeBytes_memUnchangedOutside _ bs hm.1, rfl,
    ((s.setMem_unchangedBut _).setPc _).mono (by simp)⟩

/-! ### The three instructions with I in bounds -/

theorem loadBcd_completes (x : RegIdx) (hm : Memory.wf s.mem) (hin : s.iReg.toNat + 2 ≤ 0xFFF) :
    Completes (.loadBcd x) s fun t =>
      (Memory.read t.mem s.iReg.toNat).toNat = (s.reg x).toNat / 100 ∧
      (Memory.read t.mem (s.iReg.toNat + 1)).toNat = (s.reg x).toNat / 10 % 10 ∧
      (Memory.read t.mem (s.iReg.toNat + 2)).toNat = (s.reg x).toNat % 10 ∧
      MemUnchangedOutside s.iReg.toNat 3 s t ∧ t.pc = s.pc + 2#16 ∧ UnchangedBut [.mem, .pc] s t := by
  have hlen : (bcdDigits (s.reg x)).length = 3 := rfl
  obtain ⟨t, hexec, hread, hframe⟩ := checkedWrite_completes (i := .loadBcd x) hm hlen rfl hin
  have hbyte := (s.reg x).isLt
  have hdigit {a d : Nat} (ha : Memory.read t.mem a = BitVec.ofNat 8 d) (hd : d < 2 ^ 8) :
      (Memory.read t.mem a).toNat = d := by rw [ha, BitVec.toNat_ofNat, Nat.mod_eq_of_lt hd]
  exact ⟨t, hexec, hdigit (hread 0 (by omega)) (by omega), hdigit (hread 1 (by omega)) (by omega),
    hdigit (hread 2 (by omega)) (by omega), hframe⟩

theorem storeMemory_completes (x : RegIdx) (hm : Memory.wf s.mem) (hin : s.iReg.toNat + x.val ≤ 0xFFF) :
    Completes (.storeMemory x) s fun t =>
      (∀ r : RegIdx, r ≤ x → Memory.read t.mem (s.iReg.toNat + r.val) = s.reg r) ∧
      MemUnchangedOutside s.iReg.toNat (x.val + 1) s t ∧ t.pc = s.pc + 2#16 ∧ UnchangedBut [.mem, .pc] s t := by
  have hlen : ((regsUpTo x).map s.reg).length = x.val + 1 := by rw [List.length_map, length_regsUpTo]
  obtain ⟨t, hexec, hread, hframe⟩ := checkedWrite_completes (i := .storeMemory x) hm hlen rfl hin
  refine ⟨t, hexec, fun r hr => ?_, hframe⟩
  have hk : r.val < ((regsUpTo x).map s.reg).length := by rw [hlen]; exact Nat.lt_succ_of_le hr
  rw [hread r.val hk, List.getElem_map]
  exact congrArg s.reg (Fin.ext (getElem_regsUpTo x r.val _))

theorem readMemory_completes (x : RegIdx) (hin : s.iReg.toNat + x.val ≤ 0xFFF) :
    Completes (.readMemory x) s fun t =>
      (∀ r : RegIdx, t.reg r = if r ≤ x then Memory.read s.mem (s.iReg.toNat + r.val) else s.reg r) ∧
      t.pc = s.pc + 2#16 ∧ UnchangedBut [.regs, .pc] s t := by
  refine ⟨_, checkedAccess_of_le (.inr hin), fun r => ?_, rfl, ((s.setRegs_unchangedBut _).setPc _).mono (by simp)⟩
  exact (getElem_loadRegs s.mem s.iReg.toNat (regsUpTo x) s.v r).trans (if_congr (mem_regsUpTo x r) rfl rfl)

/-- Any number of `load_byte_to_vx` in front of a run execute, and change registers and PC alone. -/
theorem runAll_loadBytes (ws : List (RegIdx × Byte)) (is : List Instr) (hfault : s.fault = none) :
    ∃ t, runAll (ws.map (fun p => Instr.loadByteToVx p.1 p.2) ++ is) s = runAll is t ∧
      UnchangedBut [.regs, .pc] s t := by
  induction ws generalizing s with
  | nil => exact ⟨s, rfl, (UnchangedBut.refl s).mono (by simp)⟩
  | cons w ws ih =>
    obtain ⟨u, hload, -, -, -, hu⟩ := loadByteWritesVx s w.1 w.2
    have hufault : u.fault = none := (hu.fault_eq (by simp)).trans hfault
    obtain ⟨t, hrun, ht⟩ := ih hufault
    exact ⟨t, (runAll_cons_of_next hload hufault).trans hrun, (hu.trans ht).mono (by simp)⟩

end MemoryTransfer

/-- Settles O45: in bounds each digit fits a byte and stands at its offset, and past memory nothing is written. -/
theorem loadBcdWritesThreeDigits : Obligations.LoadBcdWritesThreeDigits :=
  fun _ x hm => ⟨loadBcd_completes x hm, checkedAccess_raises rfl⟩

/-- Settles O46: in bounds the k-th byte written is Vk, and past memory nothing is written. -/
theorem storeMemoryCopiesRegistersOut : Obligations.StoreMemoryCopiesRegistersOut :=
  fun _ x hm => ⟨storeMemory_completes x hm, checkedAccess_raises rfl⟩

/-- Settles O47: in bounds each register up to Vx gets the byte at its own offset, and past memory nothing is loaded. -/
theorem readMemoryCopiesRegistersIn : Obligations.ReadMemoryCopiesRegistersIn :=
  fun _ x => ⟨readMemory_completes x, checkedAccess_raises rfl⟩

/-- Settles O48: the overwrites leave I and memory alone, so the reload reads the bytes that the store wrote. -/
theorem reloadRestoresStoredRegisters : Obligations.ReloadRestoresStoredRegisters := by
  intro s x ws hfault hm hin
  obtain ⟨u, hstore, hstored, -, -, hu⟩ := storeMemory_completes x hm hin
  have hufault : u.fault = none := (hu.fault_eq (by simp)).trans hfault
  obtain ⟨v, hloads, hv⟩ := runAll_loadBytes ws [.readMemory x] hufault
  have hvfault : v.fault = none := (hv.fault_eq (by simp)).trans hufault
  have hvI : v.iReg = s.iReg := (hv .index (by simp)).trans (hu .index (by simp))
  obtain ⟨t, hread, hregs, -, ht⟩ := readMemory_completes (s := v) x (by rwa [hvI])
  have htfault : t.fault = none := (ht.fault_eq (by simp)).trans hvfault
  refine ⟨t, ?_, fun r hr => ?_, (ht .index (by simp)).trans hvI⟩
  · exact ((runAll_cons_of_next hstore hufault).trans hloads).trans (runAll_cons_of_next hread htfault)
  · have hvmem : Memory.read v.mem (s.iReg.toNat + r.val) = Memory.read u.mem (s.iReg.toNat + r.val) :=
      hv .mem (by simp) _
    rw [hregs r, if_pos hr, hvI, hvmem, hstored r hr]

end Sys2Proof.Machine

namespace Sys2Proof.Machine

/-! ## Display (R104 to R108): clear and draw

The two loops of draw are one pass of the XOR pixel writer over the list of the pixels that the sprite's set bits fall
on. That list has no duplicates, since a sprite's 8 columns and at most 15 rows are fewer than the screen's 64 and 32,
so each of its pixels is inverted exactly once. -/

section Display

/-- `FB[px, py]` of a framebuffer, for a pixel given as the pair (px, py). -/
def Framebuffer.pixelAt (f : Framebuffer) (p : Fin 64 × Fin 32) : Bool := f[p.2][p.1]

/-- What draw does for a set sprite bit that falls on the pixel `p`: the XOR (R104) and the collision's OR (R105). -/
def hitPixel (acc : Framebuffer × Bool) (p : Fin 64 × Fin 32) : Framebuffer × Bool :=
  ((xorPixel acc.1 p.1 p.2 true).1, acc.2 || (xorPixel acc.1 p.1 p.2 true).2)

/-- The pixels that the set bits of the sprite row `b` fall on. -/
def rowPixels (x0 y0 : Byte) (row : Nat) (b : Byte) : List (Fin 64 × Fin 32) :=
  ((List.range 8).filter (spriteBit b)).map fun col => (columnOf x0 col, lineOf y0 row)

/-- The pixels that the set bits of the sprite's rows from `row` on fall on. -/
def rowsPixels (x0 y0 : Byte) : Nat → List Byte → List (Fin 64 × Fin 32)
  | _, [] => []
  | row, b :: bs => rowPixels x0 y0 row b ++ rowsPixels x0 y0 (row + 1) bs

/-- The pixels that `draw Vx, Vy, n` hits. -/
def spritePixels (x y : RegIdx) (n : Nibble) (s : State) : List (Fin 64 × Fin 32) :=
  rowsPixels (s.reg x) (s.reg y) 0 (Memory.readBytes s.mem (dataAddress s) n.toNat)

/-! ### The loops are one pass over the pixels hit -/

theorem drawRow_eq_foldl (x0 y0 : Byte) (row : Nat) (b : Byte) (acc : Framebuffer × Bool) :
    drawRow x0 y0 row b acc = (rowPixels x0 y0 row b).foldl hitPixel acc := by
  rw [rowPixels, List.foldl_map, List.foldl_filter]
  rfl

theorem drawRows_eq_foldl (x0 y0 : Byte) (row : Nat) (bs : List Byte) (acc : Framebuffer × Bool) :
    drawRows x0 y0 row bs acc = (rowsPixels x0 y0 row bs).foldl hitPixel acc := by
  induction bs generalizing row acc with
  | nil => rfl
  | cons b bs ih => rw [drawRows, ih, drawRow_eq_foldl, rowsPixels, List.foldl_append]

/-! ### One pass over distinct pixels -/

theorem hitPixel_pixelAt (acc : Framebuffer × Bool) (p q : Fin 64 × Fin 32) :
    (hitPixel acc p).1.pixelAt q = (acc.1.pixelAt q ^^ decide (q = p)) := by
  refine (xorPixel_read acc.1 p.1 q.1 p.2 q.2 true).trans ?_
  by_cases h : q = p
  · subst h
    simp [Framebuffer.pixelAt]
  · rw [if_neg fun hq => h (Prod.ext hq.1 hq.2), decide_eq_false h, Bool.xor_false, Framebuffer.pixelAt]

theorem hitPixel_collision (acc : Framebuffer × Bool) (p : Fin 64 × Fin 32) :
    (hitPixel acc p).2 = (acc.2 || acc.1.pixelAt p) := by
  simp [hitPixel, xorPixel, Framebuffer.pixelAt]

/-- Pixels met once each: exactly those are inverted. -/
theorem foldl_hitPixel_pixelAt {ps : List (Fin 64 × Fin 32)} (hps : ps.Nodup) (acc : Framebuffer × Bool)
    (q : Fin 64 × Fin 32) : (ps.foldl hitPixel acc).1.pixelAt q = (acc.1.pixelAt q ^^ decide (q ∈ ps)) := by
  induction ps generalizing acc with
  | nil => simp
  | cons p ps ih =>
    obtain ⟨hp, hps⟩ := List.nodup_cons.1 hps
    rw [List.foldl_cons, ih hps, hitPixel_pixelAt]
    by_cases h : q = p
    · subst h
      simp [hp]
    · simp [h]

/-- Pixels met once each: the collision is reported exactly when one of them was set before the pass. -/
theorem foldl_hitPixel_collision {ps : List (Fin 64 × Fin 32)} (hps : ps.Nodup) (acc : Framebuffer × Bool) :
    (ps.foldl hitPixel acc).2 = true ↔ acc.2 = true ∨ ∃ p ∈ ps, acc.1.pixelAt p = true := by
  induction ps generalizing acc with
  | nil => simp
  | cons p ps ih =>
    obtain ⟨hp, hps⟩ := List.nodup_cons.1 hps
    have hkept : ∀ q ∈ ps, (hitPixel acc p).1.pixelAt q = acc.1.pixelAt q := fun q hq => by
      rw [hitPixel_pixelAt, decide_eq_false (ne_of_mem_of_not_mem hq hp), Bool.xor_false]
    rw [List.foldl_cons, ih hps, hitPixel_collision, Bool.or_eq_true, or_assoc, List.exists_mem_cons_iff]
    exact or_congr_right (or_congr_right (exists_congr fun q => and_congr_right fun hq => by rw [hkept q hq]))

/-! ### The pixels hit -/

theorem columnOf_inj {x0 : Byte} {c d : Nat} (hc : c < 64) (hd : d < 64) (h : columnOf x0 c = columnOf x0 d) :
    c = d := by
  have := congrArg Fin.val h
  simp only [columnOf, Fin.val_ofNat] at this
  omega

theorem lineOf_inj {y0 : Byte} {r q : Nat} (hle : r ≤ q) (hlt : q < r + 32) (h : lineOf y0 r = lineOf y0 q) :
    r = q := by
  have := congrArg Fin.val h
  simp only [lineOf, Fin.val_ofNat] at this
  omega

theorem mem_rowPixels {x0 y0 : Byte} {row : Nat} {b : Byte} {p : Fin 64 × Fin 32} :
    p ∈ rowPixels x0 y0 row b ↔ ∃ col < 8, spriteBit b col = true ∧ p = (columnOf x0 col, lineOf y0 row) := by
  simp only [rowPixels, List.mem_map, List.mem_filter, List.mem_range, and_assoc, eq_comm]

theorem mem_rowsPixels {x0 y0 : Byte} {row : Nat} {bs : List Byte} {p : Fin 64 × Fin 32} :
    p ∈ rowsPixels x0 y0 row bs ↔ ∃ k, ∃ hk : k < bs.length, p ∈ rowPixels x0 y0 (row + k) bs[k] := by
  induction bs generalizing row with
  | nil => simp [rowsPixels]
  | cons b bs ih =>
    rw [rowsPixels, List.mem_append, ih]
    constructor
    · rintro (h | ⟨k, hk, h⟩)
      · exact ⟨0, by simp, h⟩
      · exact ⟨k + 1, by simpa using hk, by rwa [Nat.add_right_comm] at h⟩
    · rintro ⟨_ | k, hk, h⟩
      · exact .inl h
      · exact .inr ⟨k, by simpa using hk, by rwa [Nat.add_right_comm]⟩

theorem rowPixels_nodup (x0 y0 : Byte) (row : Nat) (b : Byte) : (rowPixels x0 y0 row b).Nodup := by
  refine (List.nodup_range.filter _).map_on fun c hc d hd h => ?_
  have hc8 := List.mem_range.1 (List.mem_of_mem_filter hc)
  have hd8 := List.mem_range.1 (List.mem_of_mem_filter hd)
  exact columnOf_inj (by omega) (by omega) (congrArg Prod.fst h)

/-- Up to 32 rows of a sprite fall on lines of their own. -/
theorem rowsPixels_nodup (x0 y0 : Byte) (row : Nat) (bs : List Byte) (hlen : bs.length ≤ 32) :
    (rowsPixels x0 y0 row bs).Nodup := by
  induction bs generalizing row with
  | nil => exact List.nodup_nil
  | cons b bs ih =>
    rw [List.length_cons] at hlen
    refine (rowPixels_nodup x0 y0 row b).append (ih (row + 1) (by omega)) fun p hp hp' => ?_
    obtain ⟨c, -, -, hpc⟩ := mem_rowPixels.1 hp
    obtain ⟨k, hk, hrow⟩ := mem_rowsPixels.1 hp'
    obtain ⟨d, -, -, hpd⟩ := mem_rowPixels.1 hrow
    have hline := lineOf_inj (by omega) (by omega) (congrArg Prod.snd (hpc.symm.trans hpd))
    omega

theorem spritePixels_nodup (x y : RegIdx) (n : Nibble) (s : State) : (spritePixels x y n s).Nodup :=
  rowsPixels_nodup _ _ _ _ (by rw [Memory.length_readBytes]; have := n.isLt; omega)

/-- A pixel is hit when a set bit of the sprite's bytes at I falls on it. -/
theorem mem_spritePixels {x y : RegIdx} {n : Nibble} {s : State} {p : Fin 64 × Fin 32} :
    p ∈ spritePixels x y n s ↔
      ∃ row col : Nat, row < n.toNat ∧ col < 8 ∧
        (Memory.read s.mem (s.iReg.toNat + row)).getLsbD (7 - col) = true ∧
        p = (columnOf (s.reg x) col, lineOf (s.reg y) row) := by
  simp only [spritePixels, mem_rowsPixels, mem_rowPixels, Memory.length_readBytes, Memory.getElem_readBytes,
    spriteBit, dataAddress, Nat.zero_add, exists_prop, exists_and_left]

/-- What a sprite hits depends on Vx, Vy, I and the bytes in memory alone. -/
theorem mem_spritePixels_congr {x y : RegIdx} {n : Nibble} {s t : State} (hx : t.reg x = s.reg x)
    (hy : t.reg y = s.reg y) (hI : Part.index.same s t) (hmem : Part.mem.same s t) (p : Fin 64 × Fin 32) :
    p ∈ spritePixels x y n t ↔ p ∈ spritePixels x y n s := by
  have hread (a : Nat) : Memory.read t.mem a = Memory.read s.mem a := hmem a
  have hI : t.iReg = s.iReg := hI
  simp only [mem_spritePixels, hx, hy, hI, hread]

/-! ### One draw -/

@[simp] theorem flagByte_eq_one {c : Bool} : flagByte c = 1#8 ↔ c = true := by
  cases c <;> decide

@[simp] theorem flagByte_eq_zero {c : Bool} : flagByte c = 0#8 ↔ c = false := by
  cases c <;> decide

theorem drawSprite_eq_foldl (x y : RegIdx) (n : Nibble) (s : State) :
    drawSprite x y n s = (spritePixels x y n s).foldl hitPixel (s.fb, false) :=
  drawRows_eq_foldl _ _ _ _ _

/-- Drawing inverts the pixels hit (R104). -/
theorem drawSprite_pixelAt (x y : RegIdx) (n : Nibble) (s : State) (p : Fin 64 × Fin 32) :
    (drawSprite x y n s).1.pixelAt p = (s.pixel p.1 p.2 ^^ decide (p ∈ spritePixels x y n s)) := by
  rw [drawSprite_eq_foldl]
  exact foldl_hitPixel_pixelAt (spritePixels_nodup x y n s) (s.fb, false) p

/-- Drawing reports a collision exactly when a pixel hit was set (R105). -/
theorem drawSprite_collision (x y : RegIdx) (n : Nibble) (s : State) :
    (drawSprite x y n s).2 = true ↔ ∃ p ∈ spritePixels x y n s, s.pixel p.1 p.2 = true := by
  rw [drawSprite_eq_foldl, foldl_hitPixel_collision (spritePixels_nodup x y n s)]
  exact or_iff_right Bool.false_ne_true

/-- A draw inside memory (R108): the pixels hit are inverted, and VF is the collision. -/
theorem draw_completes {s : State} (x y : RegIdx) {n : Nibble} (h : n = 0#4 ∨ s.iReg.toNat + n.toNat - 1 ≤ 0xFFF) :
    Completes (.draw x y n) s fun t =>
      (∀ p : Fin 64 × Fin 32, t.pixel p.1 p.2 = (s.pixel p.1 p.2 ^^ decide (p ∈ spritePixels x y n s))) ∧
      t.reg regVF = flagByte (drawSprite x y n s).2 ∧
      RegsUnchangedBut [regVF] s t ∧ t.pc = s.pc + 2#16 ∧ UnchangedBut [.regs, .fb, .pc] s t := by
  have hin : n.toNat = 0 ∨ s.iReg.toNat + n.toNat - 1 ≤ 0xFFF := h.imp_left (congrArg BitVec.toNat)
  exact ⟨_, checkedAccess_of_le hin, drawSprite_pixelAt x y n s, State.reg_setReg_self _ regVF _,
    State.setReg_regsUnchangedBut _ regVF _, rfl,
    (((s.setFb_unchangedBut _).trans (State.setReg_unchangedBut _ regVF _)).setPc _).mono (by simp)⟩

end Display

/-- Settles O50: a blank screen is the one write. -/
theorem clearZeroesEveryPixel : Obligations.ClearZeroesEveryPixel :=
  fun s => ⟨_, rfl, fun px py => by simp [State.pixel, State.advance], rfl,
    ((s.setFb_unchangedBut blankScreen).setPc _).mono (by simp)⟩

/-- Settles O51: `hit` is membership in the sprite's pixels, each of which is met once; past memory nothing is drawn. -/
theorem drawXorsTheSprite : Obligations.DrawXorsTheSprite := by
  intro s x y n hit hhit
  have hmem (px : Fin 64) (py : Fin 32) : (px, py) ∈ spritePixels x y n s ↔ hit px py := by
    rw [hhit, mem_spritePixels]
    simp only [Prod.mk.injEq, Fin.ext_iff, columnOf, lineOf, Fin.val_ofNat, and_comm, and_left_comm]
  refine ⟨fun hin => ?_, fun hn hout => raises_of_exec (checkedAccess_of_gt hn hout)⟩
  obtain ⟨t, hexec, hpixel, hVF, hframe⟩ := draw_completes x y hin
  refine ⟨t, hexec, fun px py => ?_, fun ⟨px, py, hp, hset⟩ => ?_, fun hclear => ?_, hframe⟩
  · rw [hpixel (px, py)]
    exact ⟨fun hp => by simp [(hmem px py).2 hp], fun hp => by simp [(hmem px py).not.2 hp]⟩
  · exact hVF.trans (flagByte_eq_one.2 ((drawSprite_collision x y n s).2 ⟨(px, py), (hmem px py).2 hp, hset⟩))
  · refine hVF.trans (flagByte_eq_zero.2 (Bool.eq_false_iff.2 fun hc => ?_))
    obtain ⟨⟨px, py⟩, hp, hset⟩ := (drawSprite_collision x y n s).1 hc
    rw [hclear px py ((hmem px py).1 hp)] at hset
    cases hset

/-- Settles O52: the second draw hits the same pixels as the first, so each is inverted twice, and is set in
between exactly when it was 0 at the start. -/
theorem drawingTwiceRestoresTheScreen : Obligations.DrawingTwiceRestoresTheScreen := by
  intro s x y n hfault hx hy hin
  obtain ⟨u, hfirst, hupixel, -, huregs, -, hu⟩ := draw_completes x y hin
  have hufault : u.fault = none := (hu.fault_eq (by simp)).trans hfault
  have huI : u.iReg = s.iReg := hu .index (by simp)
  obtain ⟨t, hsecond, htpixel, hVF, htregs, -, ht⟩ := draw_completes (s := u) x y (n := n) (by rwa [huI])
  have htfault : t.fault = none := (ht.fault_eq (by simp)).trans hufault
  have hsame := mem_spritePixels_congr (n := n) (huregs x (by simpa using hx)) (huregs y (by simpa using hy))
    (hu .index (by simp)) (hu .mem (by simp))
  refine ⟨t, (runAll_cons_of_next hfirst hufault).trans (runAll_cons_of_next hsecond htfault), fun px py => ?_, ?_,
    fun r hr => (htregs r hr).trans (huregs r hr)⟩
  · rw [htpixel (px, py), hupixel (px, py)]
    simp only [hsame, Bool.xor_assoc, Bool.xor_self, Bool.xor_false]
  · have hset : (∃ p ∈ spritePixels x y n u, u.pixel p.1 p.2 = true) ↔
        ∃ p ∈ spritePixels x y n s, s.pixel p.1 p.2 = false :=
      exists_congr fun p => (and_congr_left' (hsame p)).trans <| and_congr_right fun hp => by
        rw [hupixel, decide_eq_true hp, Bool.xor_true, Bool.not_eq_true']
    rw [hVF, flagByte_eq_one, drawSprite_collision, hset]
    constructor
    · rintro ⟨p, hp, hclear⟩
      obtain ⟨row, col, hrow, hcol, hbit, rfl⟩ := mem_spritePixels.1 hp
      exact ⟨row, col, hrow, hcol, hbit, hclear⟩
    · rintro ⟨row, col, hrow, hcol, hbit, hclear⟩
      exact ⟨_, mem_spritePixels.2 ⟨row, col, hrow, hcol, hbit, rfl⟩, hclear⟩

end Sys2Proof.Machine

namespace Sys2Proof.Machine

/-! ## The delay timer (R112, R113) -/

/-- Settles O53: reading the timer is one register write, of DT; setting it is the one write of DT, from Vx. -/
theorem delayTimerTransfers : Obligations.DelayTimerTransfers :=
  fun s x => ⟨setReg_completes rfl rfl, _, rfl, s.setDt_dt (s.reg x), rfl,
    ((s.setDt_unchangedBut (s.reg x)).setPc _).mono (by simp)⟩

end Sys2Proof.Machine

namespace Sys2Proof.Machine

/-! ## The key instructions (R117 to R119) -/

/-- The decoder recovers the instruction from its word, so the word names it (R122). -/
@[simp] theorem rowName_encode (i : Instr) : rowName (encode i) = some i.name := by
  rw [rowName, decode_encode]

/-- The payload of a NotImplemented record with an instruction's own word is its name, wherever it was raised (R120). -/
theorem payloadOf_notImplemented (i : Instr) (pc : Word) :
    payloadOf ⟨.notImplemented, some (encode i), pc⟩ = .name i.name := by
  simp only [payloadOf, rowName_encode]

/-- An instruction that the model executes as NotImplemented alone raises it, under its own name. -/
theorem raises_notImplemented {i : Instr} {s : State} (h : exec i s = raiseIn i .notImplemented s) :
    Raises i s .notImplemented ∧ payloadOf ⟨.notImplemented, some (encode i), s.pc⟩ = .name i.name :=
  ⟨raises_of_exec h, payloadOf_notImplemented i s.pc⟩

/-- Settles O55: `exec` of each key instruction is the raise alone, and its word decodes back to it, hence to its name. -/
theorem keyInstructionsRaiseNotImplemented : Obligations.KeyInstructionsRaiseNotImplemented := fun _ x =>
  ⟨raises_notImplemented (i := .skipKeyPressed x) rfl, raises_notImplemented (i := .skipKeyNotPressed x) rfl,
    raises_notImplemented (i := .waitKeyPress x) rfl⟩

end Sys2Proof.Machine

namespace Sys2Proof.Machine

/-! ## The two answers of `return`, of `call` and of a checked access, read from the next state -/

section Answers

variable {s t : State}

theorem ret_cases (h : exec .ret s = .next t) :
    (0 < s.depth.val ∧
      t = (s.setStack s.stack ⟨s.depth.val - 1, by omega⟩).setPc s.stack[s.depth.val - 1]) ∨
    (s.depth.val = 0 ∧ t = s.raise .stackUnderflow (some (encode .ret))) := by
  by_cases hd : 0 < s.depth.val
  · exact .inl ⟨hd, Host.Outcome.next.inj (h.symm.trans (execRet_of_pos hd))⟩
  · exact .inr ⟨by omega, Host.Outcome.next.inj (h.symm.trans (execRet_of_empty hd))⟩

theorem call_cases {nnn : Addr12} (h : exec (.call nnn) s = .next t) :
    (∃ hd : s.depth.val < 16, t = (s.setStack (s.stack.set s.depth.val (s.pc + 2#16))
      ⟨s.depth.val + 1, by omega⟩).setPc (targetOf nnn)) ∨
    (s.depth.val = 16 ∧ t = s.raise .stackOverflow (some (encode (.call nnn)))) := by
  by_cases hd : s.depth.val < 16
  · exact .inl ⟨hd, Host.Outcome.next.inj (h.symm.trans (execCall_of_lt nnn hd))⟩
  · exact .inr ⟨by omega, Host.Outcome.next.inj (h.symm.trans (execCall_of_full nnn hd))⟩

theorem checkedAccess_next_cases {i : Instr} {n : Nat} {u : State} (h : checkedAccess i n s u = .next t) :
    ((n = 0 ∨ s.iReg.toNat + n - 1 ≤ 0xFFF) ∧ t = u.advance) ∨
    (0 < n ∧ 0xFFF < s.iReg.toNat + n - 1 ∧ t = s.raise .indexOutOfBounds (some (encode i))) := by
  obtain ⟨hin, hc⟩ | ⟨hn, hgt, hr⟩ := checkedAccess_cases i n s u
  · exact .inl ⟨hin, Host.Outcome.next.inj (h.symm.trans hc)⟩
  · exact .inr ⟨hn, hgt, Host.Outcome.next.inj (h.symm.trans hr)⟩

end Answers

/-! ## No instruction stops the machine (R121, R124, R127) -/

theorem exists_checkedAccess_eq_next (i : Instr) (n : Nat) (s u : State) : ∃ t, checkedAccess i n s u = .next t := by
  obtain ⟨-, hc⟩ | ⟨-, -, hr⟩ := checkedAccess_cases i n s u
  · exact ⟨_, hc⟩
  · exact ⟨_, hr⟩

/-- Every instruction answers a next state: the four that check an access, `call` and `return` have two answers, and
all the others one. -/
theorem exists_exec_eq_next (i : Instr) (s : State) : ∃ t, exec i s = .next t := by
  cases i with
  | ret =>
    by_cases hd : 0 < s.depth.val
    · exact ⟨_, execRet_of_pos hd⟩
    · exact ⟨_, execRet_of_empty hd⟩
  | call nnn =>
    by_cases hd : s.depth.val < 16
    · exact ⟨_, execCall_of_lt nnn hd⟩
    · exact ⟨_, execCall_of_full nnn hd⟩
  | draw x y n | loadBcd x | storeMemory x | readMemory x => exact exists_checkedAccess_eq_next _ _ s _
  | _ => exact ⟨_, rfl⟩

section Step

variable {s t : State}

theorem step_of_fetch_none (hfault : s.fault = none) (hfetch : fetch s = none) :
    step s = .next (s.raise .indexOutOfBounds none) := by
  simp only [step, hfault, hfetch, raiseFetch]

theorem step_of_fault {r : FaultRecord} (hfault : s.fault = some r) : step s = .fault (.latched r) := by
  simp only [step, hfault, refuseStep]

/-- Without a latched fault a step answers, whatever is fetched and however it decodes. -/
theorem exists_step_eq_next (hfault : s.fault = none) : ∃ t, step s = .next t := by
  cases hfetch : fetch s with
  | none => exact ⟨_, step_of_fetch_none hfault hfetch⟩
  | some w =>
    cases hdecode : decode w with
    | error e => exact ⟨_, step_of_decode_error hfault hfetch hdecode⟩
    | ok i =>
      obtain ⟨t, hexec⟩ := exists_exec_eq_next i s
      exact ⟨t, (step_of_decode hfault hfetch hdecode).trans hexec⟩

theorem fetch_of_gt (h : 0xFFF < s.pc.toNat + 1) : fetch s = none := by
  rw [fetch_eq, if_neg (by omega)]

theorem pc_le_of_fetch {w : Word} (h : fetch s = some w) : s.pc.toNat + 1 ≤ 0xFFF := by
  by_contra hgt
  rw [fetch_of_gt (by omega)] at h
  cases h

end Step

/-- Settles O15: every instruction answers a next state, so nothing but the latch is left to stop a step. -/
theorem nothingStopsButTheLatch : Obligations.NothingStopsButTheLatch :=
  ⟨exists_exec_eq_next, fun _ => ⟨fun ⟨_, h⟩ => (step_cases h).1, exists_step_eq_next⟩⟩

/-! ## PC after an instruction (R68, R73 to R81) -/

section ProgramCounter

variable {s t : State}

/-- What PC holds after an instruction that committed, run from `s`. -/
def MovesPc (i : Instr) (s t : State) : Prop :=
  match i with
  | .jump nnn | .call nnn => t.pc = targetOf nnn
  | .jumpOffset nnn => t.pc = offsetTarget nnn s
  | .ret => ∃ k : Fin 16, t.pc = s.stack[k]
  | .skipEqual _ _ | .skipNotEqual _ _ | .skipEqualRegister _ _ | .skipNotEqualRegister _ _ =>
    t.pc = s.pc + 2#16 ∨ t.pc = s.pc + 4#16
  | _ => t.pc = s.pc + 2#16

theorem State.skipIf_pc (s : State) (c : Bool) : (s.skipIf c).pc = s.pc + 2#16 ∨ (s.skipIf c).pc = s.pc + 4#16 := by
  cases c
  · exact .inl rfl
  · exact .inr rfl

theorem checkedAccess_advances_or_raises {i : Instr} {n : Nat} {u : State} (h : checkedAccess i n s u = .next t)
    (hu : u.pc = s.pc) : (∃ k, t = s.raise k (some (encode i))) ∨ t.pc = s.pc + 2#16 := by
  obtain ⟨-, rfl⟩ | ⟨-, -, rfl⟩ := checkedAccess_next_cases h
  · exact .inr (congrArg (· + 2#16) hu)
  · exact .inl ⟨_, rfl⟩

/-- An instruction that answers has raised an error or moved PC as its row says. -/
theorem exec_movesPc_or_raises {i : Instr} (h : exec i s = .next t) :
    (∃ k, t = s.raise k (some (encode i))) ∨ MovesPc i s t := by
  cases i with
  | ret =>
    obtain ⟨-, rfl⟩ | ⟨-, rfl⟩ := ret_cases h
    · exact .inr ⟨⟨s.depth.val - 1, by omega⟩, rfl⟩
    · exact .inl ⟨_, rfl⟩
  | call nnn =>
    obtain ⟨-, rfl⟩ | ⟨-, rfl⟩ := call_cases h
    · exact .inr rfl
    · exact .inl ⟨_, rfl⟩
  | draw x y n | loadBcd x | storeMemory x | readMemory x => exact checkedAccess_advances_or_raises h rfl
  | skipKeyPressed x | skipKeyNotPressed x | waitKeyPress x => exact .inl ⟨_, (Host.Outcome.next.inj h).symm⟩
  | skipEqual x b | skipNotEqual x b | skipEqualRegister x b | skipNotEqualRegister x b =>
    exact .inr (Host.Outcome.next.inj h ▸ s.skipIf_pc _)
  | addVxVy x y | subVxVy x y | shrVxVy x y | subnVxVy x y | shlVxVy x y =>
    exact .inr (Host.Outcome.next.inj h ▸ congrArg (· + 2#16) (State.aluFlag_pc _ _))
  | _ => exact .inr (Host.Outcome.next.inj h ▸ rfl)

/-- Where a word can be fetched, two or four on is an exact sum (D11). -/
theorem pc_add_toNat (hpc : s.pc.toNat + 1 ≤ 0xFFF) {k : Nat} (hk : k ≤ 4) :
    (s.pc + BitVec.ofNat 16 k).toNat = s.pc.toNat + k := by
  rw [BitVec.toNat_add, BitVec.toNat_ofNat]
  omega

end ProgramCounter

/-- Settles O14: a step that ends without a fault has not raised, so PC is where the row puts it; and the fetch bound
leaves room for the sum. -/
theorem committedStepMovesPc : Obligations.CommittedStepMovesPc := by
  intro s t w i hfetch hdecode hstep hfault
  obtain ⟨hnone, -⟩ := step_cases hstep
  have hexec : exec i s = .next t := (step_of_decode hnone hfetch hdecode).symm.trans hstep
  have hpc := pc_le_of_fetch hfetch
  have htwo : (s.pc + 2#16).toNat = s.pc.toNat + 2 := pc_add_toNat hpc (by omega)
  have hfour : (s.pc + 4#16).toNat = s.pc.toNat + 4 := pc_add_toNat hpc (by omega)
  obtain ⟨k, rfl⟩ | hmove := exec_movesPc_or_raises hexec
  · cases hfault
  · cases i with
    | jump _ | jumpOffset _ | call _ | ret => trivial
    | skipEqual _ _ | skipNotEqual _ _ | skipEqualRegister _ _ | skipNotEqualRegister _ _ =>
      exact hmove.imp (fun h => (congrArg BitVec.toNat h).trans htwo) fun h => (congrArg BitVec.toNat h).trans hfour
    | _ => exact (congrArg BitVec.toNat hmove).trans htwo

end Sys2Proof.Machine

namespace Sys2Proof.Machine

/-! ## The state's invariant (10_state.md R21, 41_control_flow.md R74, R75) -/

section Invariant

variable {s t : State}

@[simp] theorem State.raise_inv (k : ErrorKind) (w : Option Word) : (s.raise k w).Inv ↔ s.Inv := Iff.rfl

theorem State.reset_inv : State.reset.Inv := by
  refine ⟨Memory.reset_wf, by decide, fun k => ?_⟩
  simp [State.reset]

/-! ### Memory stays canonical -/

/-- A checked access keeps the memory of its two ends canonical. -/
theorem checkedAccess_wf {i : Instr} {n : Nat} {u : State} (h : checkedAccess i n s u = .next t)
    (hs : Memory.wf s.mem) (hu : n = 0 ∨ s.iReg.toNat + n - 1 ≤ 0xFFF → Memory.wf u.mem) : Memory.wf t.mem := by
  obtain ⟨hin, rfl⟩ | ⟨-, -, rfl⟩ := checkedAccess_next_cases h
  · exact hu hin
  · exact hs

theorem checkedWrite_wf {i : Instr} {n : Nat} {bs : List Byte} (hlen : bs.length = n + 1)
    (h : checkedAccess i (n + 1) s (s.setMem (Memory.writeBytes s.mem (dataAddress s) bs)) = .next t)
    (hs : Memory.wf s.mem) : Memory.wf t.mem := by
  refine checkedAccess_wf h hs fun hin => Memory.wf_writeBytes _ bs hs ?_
  unfold dataAddress Config.memSize
  omega

theorem exec_wf {i : Instr} (h : exec i s = .next t) (hs : Memory.wf s.mem) : Memory.wf t.mem := by
  cases i with
  | ret =>
    obtain ⟨-, rfl⟩ | ⟨-, rfl⟩ := ret_cases h
    · exact hs
    · exact hs
  | call nnn =>
    obtain ⟨-, rfl⟩ | ⟨-, rfl⟩ := call_cases h
    · exact hs
    · exact hs
  | draw x y n | readMemory x => exact checkedAccess_wf h hs fun _ => hs
  | loadBcd x => exact checkedWrite_wf (bs := bcdDigits (s.reg x)) rfl h hs
  | storeMemory x => exact checkedWrite_wf (by rw [List.length_map, length_regsUpTo]) h hs
  | addVxVy x y | subVxVy x y | shrVxVy x y | subnVxVy x y | shlVxVy x y =>
    exact Host.Outcome.next.inj h ▸ (State.aluFlag_mem _ _).symm ▸ hs
  | _ => exact Host.Outcome.next.inj h ▸ hs

/-! ### Every slot of the stack stays a return address -/

/-- The one thing an instruction ever writes to a stack slot is the address after it (R75). -/
theorem exec_slot {i : Instr} (h : exec i s = .next t) (k : Fin 16) :
    t.stack[k] = s.stack[k] ∨ t.stack[k] = s.pc + 2#16 := by
  cases i with
  | ret =>
    obtain ⟨-, rfl⟩ | ⟨-, rfl⟩ := ret_cases h
    · exact .inl rfl
    · exact .inl rfl
  | call nnn =>
    obtain ⟨-, rfl⟩ | ⟨-, rfl⟩ := call_cases h
    · simp only [State.setPc_stack, State.setStack_stack, Fin.getElem_fin, Vector.getElem_set]
      split
      · exact .inr rfl
      · exact .inl rfl
    · exact .inl rfl
  | _ => exact .inl ((exec_changesOnly _ s t h .stack (by simp [mayWrite])).2 k)

theorem exec_slot_le {i : Instr} (h : exec i s = .next t) (hpc : s.pc.toNat + 1 ≤ 0xFFF)
    (hslots : ∀ k : Fin 16, (s.stack[k]).toNat ≤ 0x1000) (k : Fin 16) : (t.stack[k]).toNat ≤ 0x1000 := by
  obtain hk | hk := exec_slot h k
  · exact hk ▸ hslots k
  · have htwo : (s.pc + 2#16).toNat = s.pc.toNat + 2 := pc_add_toNat hpc (by omega)
    rw [hk, htwo]
    omega

/-! ### PC stays within reach -/

theorem offsetTarget_toNat (nnn : Addr12) (s : State) : (offsetTarget nnn s).toNat = nnn.toNat + (s.reg 0).toNat := by
  have hnnn := nnn.isLt
  have hV0 := (s.reg 0).isLt
  rw [offsetTarget, BitVec.toNat_add, targetOf_toNat, BitVec.toNat_setWidth]
  omega

theorem MovesPc.pc_le {i : Instr} (h : MovesPc i s t) (hpc : s.pc.toNat + 1 ≤ 0xFFF)
    (hslots : ∀ k : Fin 16, (s.stack[k]).toNat ≤ 0x1000) : t.pc.toNat ≤ 0x10FE := by
  have htwo : (s.pc + 2#16).toNat = s.pc.toNat + 2 := pc_add_toNat hpc (by omega)
  have hfour : (s.pc + 4#16).toNat = s.pc.toNat + 4 := pc_add_toNat hpc (by omega)
  cases i with
  | jump nnn | call nnn =>
    have hnnn := nnn.isLt
    have hmove : t.pc = targetOf nnn := h
    rw [hmove, targetOf_toNat]
    omega
  | jumpOffset nnn =>
    have hnnn := nnn.isLt
    have hV0 := (s.reg 0).isLt
    have hmove : t.pc = offsetTarget nnn s := h
    rw [hmove, offsetTarget_toNat]
    omega
  | ret =>
    obtain ⟨k, hk⟩ := h
    have hslot := hslots k
    rw [hk]
    omega
  | skipEqual _ _ | skipNotEqual _ _ | skipEqualRegister _ _ | skipNotEqualRegister _ _ =>
    obtain hmove | hmove := h
    · rw [hmove, htwo]
      omega
    · rw [hmove, hfour]
      omega
  | _ =>
    have hmove : t.pc = s.pc + 2#16 := h
    rw [hmove, htwo]
    omega

theorem exec_inv {i : Instr} (h : exec i s = .next t) (hpc : s.pc.toNat + 1 ≤ 0xFFF) (hs : s.Inv) : t.Inv := by
  obtain ⟨hmem, -, hslots⟩ := hs
  refine ⟨exec_wf h hmem, ?_, exec_slot_le h hpc hslots⟩
  obtain ⟨k, rfl⟩ | hmove := exec_movesPc_or_raises h
  · show s.pc.toNat ≤ 0x10FE
    omega
  · exact hmove.pc_le hpc hslots

/-- An error leaves all that the invariant speaks of alone, and an instruction runs only where a word can be
fetched. -/
theorem step_inv (h : step s = .next t) (hs : s.Inv) : t.Inv := by
  obtain ⟨-, ⟨-, rfl⟩ | ⟨w, e, -, -, rfl⟩ | ⟨w, i, hfetch, -, hexec⟩⟩ := step_cases h
  · exact (s.raise_inv _ _).2 hs
  · exact (s.raise_inv _ _).2 hs
  · exact exec_inv hexec (pc_le_of_fetch hfetch) hs

end Invariant

/-- Settles O18: every write of memory is inside it, the only addresses pushed are two on from where a word was fetched,
and PC moves to one of those, to a 12-bit target, to such a target plus a byte, or two or four on. -/
theorem stepKeepsTheInvariant : Obligations.StepKeepsTheInvariant := fun _ _ hs h => step_inv h hs

/-! ## The latch tells the truth (60_exceptions.md R120, R122) -/

section Latch

variable {s t : State}

theorem latchTrue_of_fault_eq_none (h : s.fault = none) : LatchTrue s := fun r hr => by
  rw [h] at hr
  cases hr

/-- An error's entry changes nothing that its record speaks of. -/
theorem latchTrue_raise {k : ErrorKind} {w : Option Word} (h : RecordTrue s ⟨k, w, s.pc⟩) :
    LatchTrue (s.raise k w) := by
  rintro r ⟨⟩
  exact h

theorem checkedAccess_latchTrue {i : Instr} {n : Nat} {u : State} (h : checkedAccess i n s u = .next t)
    (hu : u.fault = none)
    (hraise : 0 < n → 0xFFF < s.iReg.toNat + n - 1 → RecordTrue s ⟨.indexOutOfBounds, some (encode i), s.pc⟩) :
    LatchTrue t := by
  obtain ⟨-, rfl⟩ | ⟨hn, hgt, rfl⟩ := checkedAccess_next_cases h
  · exact latchTrue_of_fault_eq_none hu
  · exact latchTrue_raise (hraise hn hgt)

/-- Each instruction that raises does so under the condition that the error table gives for its kind. -/
theorem exec_latchTrue {i : Instr} (h : exec i s = .next t) (hfault : s.fault = none)
    (hfetch : fetch s = some (encode i)) : LatchTrue t := by
  cases i with
  | ret =>
    obtain ⟨-, rfl⟩ | ⟨hd, rfl⟩ := ret_cases h
    · exact latchTrue_of_fault_eq_none hfault
    · have hsp : s.sp = -1 := by rw [State.sp]; omega
      exact latchTrue_raise ⟨rfl, hfetch.symm, hsp, rfl⟩
  | call nnn =>
    obtain ⟨-, rfl⟩ | ⟨hd, rfl⟩ := call_cases h
    · exact latchTrue_of_fault_eq_none hfault
    · have hsp : s.sp = 15 := by rw [State.sp]; omega
      exact latchTrue_raise ⟨rfl, hfetch.symm, hsp, nnn, rfl⟩
  | draw x y n =>
    exact checkedAccess_latchTrue h hfault fun hn hgt =>
      ⟨rfl, hfetch.symm, .inr (.inl ⟨x, y, n, rfl, hn, hgt⟩)⟩
  | loadBcd x =>
    exact checkedAccess_latchTrue h hfault fun _ hgt => ⟨rfl, hfetch.symm, .inr (.inr (.inl ⟨x, rfl, hgt⟩))⟩
  | storeMemory x =>
    exact checkedAccess_latchTrue h hfault fun _ hgt => ⟨rfl, hfetch.symm, .inr (.inr (.inr (.inl ⟨x, rfl, hgt⟩)))⟩
  | readMemory x =>
    exact checkedAccess_latchTrue h hfault fun _ hgt => ⟨rfl, hfetch.symm, .inr (.inr (.inr (.inr ⟨x, rfl, hgt⟩)))⟩
  | skipKeyPressed x =>
    exact Host.Outcome.next.inj h ▸ latchTrue_raise ⟨rfl, hfetch.symm, x, .inl rfl⟩
  | skipKeyNotPressed x =>
    exact Host.Outcome.next.inj h ▸ latchTrue_raise ⟨rfl, hfetch.symm, x, .inr (.inl rfl)⟩
  | waitKeyPress x =>
    exact Host.Outcome.next.inj h ▸ latchTrue_raise ⟨rfl, hfetch.symm, x, .inr (.inr rfl)⟩
  | _ =>
    have hkept : t.fault = s.fault := exec_changesOnly _ s t h .fault (by simp [mayWrite])
    exact latchTrue_of_fault_eq_none (hkept.trans hfault)

/-- The decoder's only error is `UnknownInstruction` with the word itself (R51). -/
theorem decode_error_eq {w : Word} {e : DecodeError} (h : decode w = .error e) : e = .unknownInstruction w := by
  unfold decode at h
  split at h
  · cases h
  · exact (Except.error.inj h).symm

theorem fetch_eq_none_iff : fetch s = none ↔ 0xFFF < s.pc.toNat + 1 := by
  refine ⟨fun h => ?_, fetch_of_gt⟩
  by_contra hle
  rw [fetch_eq, if_pos (by omega)] at h
  cases h

/-- A step answers only from an unset latch, and the three that may raise, the fetch, the decoder and the instruction,
record what was fetched. -/
theorem step_latchTrue (h : step s = .next t) : LatchTrue t := by
  obtain ⟨hfault, ⟨hfetch, rfl⟩ | ⟨w, e, hfetch, hdecode, rfl⟩ | ⟨w, i, hfetch, hdecode, hexec⟩⟩ := step_cases h
  · exact latchTrue_raise ⟨rfl, hfetch.symm, .inl ⟨rfl, fetch_eq_none_iff.1 hfetch⟩⟩
  · exact latchTrue_raise ⟨rfl, hfetch.symm, w, rfl, decode_error_eq hdecode ▸ hdecode⟩
  · exact exec_latchTrue hexec hfault (by rw [hfetch, encode_of_decode hdecode])

end Latch

/-- Settles O19: a latched step gives no next state, so the latch of `t` holds what this step raised, if anything. -/
theorem stepLatchesTheTruth : Obligations.StepLatchesTheTruth := fun _ _ _ h => step_latchTrue h

/-! ## The host's operations keep the invariants (R30, R145) -/

section HostMoves

variable {c d : Session}

/-- The host's step leaves the state as it was or is a step of the machine. -/
theorem hostStep_cases (s : State) : (hostStep s).1 = s ∨ step s = .next (hostStep s).1 := by
  unfold hostStep
  split
  case h_1 t h => exact .inr h
  case h_2 => exact .inl rfl
  case h_3 => exact .inl rfl

theorem hostReset_sessionInv (s : State) : Session.Inv ⟨s.hostReset, true⟩ :=
  ⟨State.reset_inv, latchTrue_of_fault_eq_none rfl, fun _ => rfl⟩

theorem hostLoad_sessionInv {s t : State} {a : Nat} {b : Byte} (h : hostLoad s a b = some t) (hs : s.Inv)
    (hfault : s.fault = none) : Session.Inv ⟨t, true⟩ := by
  unfold hostLoad at h
  split at h
  case isTrue ha =>
    obtain rfl := Option.some.inj h
    obtain ⟨hmem, hpc, hslots⟩ := hs
    exact ⟨⟨Memory.wf_write a b hmem ha, hpc, hslots⟩, latchTrue_of_fault_eq_none hfault, fun _ => hfault⟩
  case isFalse => cases h

theorem hostStep_sessionInv {s : State} (hs : s.Inv) (hlatch : LatchTrue s) :
    Session.Inv ⟨(hostStep s).1, false⟩ := by
  obtain hkept | hstep := hostStep_cases s
  · rw [hkept]
    exact ⟨hs, hlatch, fun h => by cases h⟩
  · exact ⟨step_inv hstep hs, step_latchTrue hstep, fun h => by cases h⟩

theorem tick_sessionInv (hc : c.Inv) : Session.Inv { c with core := c.core.tick } := hc

theorem hostMove_inv {m : HostMove} (h : hostMove m c = some d) (hc : c.Inv) : d.Inv := by
  cases m with
  | reset => exact Option.some.inj h ▸ hostReset_sessionInv c.core
  | load a b =>
    obtain ⟨hs, -, hfault⟩ := hc
    simp only [hostMove] at h
    split at h
    case isTrue hloading =>
      obtain ⟨t, hload, rfl⟩ := Option.map_eq_some_iff.1 h
      exact hostLoad_sessionInv hload hs (hfault hloading)
    case isFalse => cases h
  | step =>
    obtain ⟨hs, hlatch, -⟩ := hc
    exact Option.some.inj h ▸ hostStep_sessionInv hs hlatch
  | tick => exact Option.some.inj h ▸ tick_sessionInv hc

theorem hostMoves_cons_eq_some {m : HostMove} {ms : List HostMove} (h : hostMoves (m :: ms) c = some d) :
    ∃ e, hostMove m c = some e ∧ hostMoves ms e = some d := by
  unfold hostMoves at h
  split at h
  case h_1 e he => exact ⟨e, he, h⟩
  case h_2 => cases h

theorem hostMoves_inv {ms : List HostMove} (h : hostMoves ms c = some d) (hc : c.Inv) : d.Inv := by
  induction ms generalizing c with
  | nil => exact Option.some.inj h ▸ hc
  | cons m ms ih =>
    obtain ⟨e, hm, hms⟩ := hostMoves_cons_eq_some h
    exact ih hms (hostMove_inv hm hc)

end HostMoves

/-- Settles O20: each operation keeps the session's invariant, so every sequence does. -/
theorem hostMovesKeepTheInvariants : Obligations.HostMovesKeepTheInvariants := fun _ _ _ hc h => hostMoves_inv h hc

/-! ## Loading (R137, R139, R145) -/

section Loading

variable {c d : Session}

/-- Once loading is over, only a reset opens it again. -/
theorem hostMove_keeps_notLoading {m : HostMove} (h : hostMove m c = some d) (hm : m ≠ .reset)
    (hc : c.loading = false) : d.loading = false := by
  cases m with
  | reset => exact absurd rfl hm
  | load a b => simp [hostMove, hc] at h
  | step => exact Option.some.inj h ▸ rfl
  | tick => exact Option.some.inj h ▸ hc

theorem hostMoves_keeps_notLoading {ms : List HostMove} (h : hostMoves ms c = some d) (hms : .reset ∉ ms)
    (hc : c.loading = false) : d.loading = false := by
  induction ms generalizing c with
  | nil => exact Option.some.inj h ▸ hc
  | cons m ms ih =>
    obtain ⟨e, hm, hrest⟩ := hostMoves_cons_eq_some h
    have hne : m ≠ .reset := (List.ne_of_not_mem_cons hms).symm
    exact ih hrest (List.not_mem_of_not_mem_cons hms) (hostMove_keeps_notLoading hm hne hc)

/-- Before the first step, a load inside memory is one write of it. -/
theorem hostMove_load_of_lt (s : State) {a : Nat} (b : Byte) (ha : a < Config.memSize) :
    hostMove (.load a b) ⟨s, true⟩ = some ⟨s.setMem (Memory.write s.mem a b), true⟩ := by
  simp [hostMove, hostLoad, ha]

theorem hostMove_load_of_ge (s : State) {a : Nat} (b : Byte) (ha : Config.memSize ≤ a) :
    hostMove (.load a b) ⟨s, true⟩ = none := by
  simp [hostMove, hostLoad, Nat.not_lt.2 ha]

/-- A program that fits from `a` on loads as its bytes written there. -/
theorem hostMoves_loadProgram_of_le (s : State) (a : Nat) (bs : List Byte) (h : a + bs.length ≤ Config.memSize) :
    hostMoves (loadProgram a bs) ⟨s, true⟩ = some ⟨s.setMem (Memory.writeBytes s.mem a bs), true⟩ := by
  induction bs generalizing s a with
  | nil => rfl
  | cons b bs ih =>
    rw [List.length_cons] at h
    rw [loadProgram, hostMoves, hostMove_load_of_lt s b (by omega)]
    exact ih _ (a + 1) (by omega)

/-- A program that starts in memory and does not fit reaches a load that has no move. -/
theorem hostMoves_loadProgram_of_gt (s : State) (a : Nat) (bs : List Byte) (ha : a ≤ Config.memSize)
    (h : Config.memSize < a + bs.length) : hostMoves (loadProgram a bs) ⟨s, true⟩ = none := by
  induction bs generalizing s a with
  | nil =>
    rw [List.length_nil] at h
    omega
  | cons b bs ih =>
    rw [List.length_cons] at h
    rw [loadProgram, hostMoves]
    by_cases hlt : a < Config.memSize
    · rw [hostMove_load_of_lt s b hlt]
      exact ih _ (a + 1) hlt (by omega)
    · rw [hostMove_load_of_ge s b (Nat.not_lt.1 hlt)]

end Loading

/-- Settles O24: the step ends loading, and no other operation than a reset opens it again. -/
theorem noLoadAfterTheFirstStep : Obligations.NoLoadAfterTheFirstStep := by
  intro ms c d a b hms h
  obtain ⟨e, hstep, hrest⟩ := hostMoves_cons_eq_some h
  have he : e.loading = false := Option.some.inj hstep ▸ rfl
  have hd : d.loading = false := hostMoves_keeps_notLoading hrest hms he
  simp [hostMove, hd]

/-- Settles O23: loading is one write of the program's bytes at 0x200, which memory has room for up to 3584. -/
theorem programLoadsFromStart : Obligations.ProgramLoadsFromStart := by
  intro bs
  have hsize : Config.memSize = 0x200 + 3584 := rfl
  refine ⟨fun hle => ?_, fun hgt => hostMoves_loadProgram_of_gt _ _ bs (by omega) (by omega)⟩
  refine ⟨_, hostMoves_loadProgram_of_le State.reset 0x200 bs (by omega), rfl, fun k hk => ?_,
    State.reset.setMem_writeBytes_memUnchangedOutside _ bs Memory.reset_wf.1, State.reset.setMem_unchangedBut _⟩
  exact Memory.read_writeBytes_add 0x200 bs Memory.reset_wf.1 hk

end Sys2Proof.Machine

namespace Sys2Proof

/-! ## The words of the catalog (R51 to R55) -/

/-- Settles O2: each word is its format's pattern, and a pattern's number is the sum of its fields at their places. -/
theorem everyWordIsItsPattern : Obligations.EveryWordIsItsPattern := by
  intro x y n kk nnn
  simp only [encode, wordAddr_toNat, wordXkk_toNat, wordXyn_toNat, BitVec.toNat_ofNat, true_and]
  and_intros <;> omega

/-- Settles O4: the row that covers a word builds an instruction whose pattern is that word. -/
theorem encodeOfDecode : Obligations.EncodeOfDecode := fun _ _ => encode_of_decode

/-- Settles O5: of two rows that covered one word the catalog would hold a pair that is not apart. -/
theorem noWordMatchesTwoRows : Obligations.NoWordMatchesTwoRows := by
  intro w
  have hapart := catalog_pairwise_apart.filter (fun d => d.covers w)
  have hcovers (d : Descriptor) (hd : d ∈ catalog.filter (fun d => d.covers w)) : d.covers w = true :=
    (List.mem_filter.1 hd).2
  generalize catalog.filter (fun d => d.covers w) = rows at hapart hcovers ⊢
  match rows with
  | [] | [_] => simp
  | d :: e :: rest =>
    have hde : d.Apart e := List.rel_of_pairwise_cons hapart List.mem_cons_self
    exact absurd (hcovers d (by simp)) (hde.not_covers (hcovers e (by simp)))

/-- Settles O1: each of the words is run through the decoder. -/
theorem sampleWordsDecode : Obligations.SampleWordsDecode := by
  unfold Obligations.SampleWordsDecode
  decide

/-! ### A word under a mask, as a number -/

theorem and_mask_op_toNat (w : Word) : (w &&& 0xF000#16).toNat = w.toNat / 0x1000 * 0x1000 := by
  have hmask := mask_wordAddr (fieldOp w) (fieldNnn w)
  rw [wordAddr_fields] at hmask
  rw [hmask, wordAddr_toNat, fieldOp_toNat]
  simp

theorem and_mask_xy_toNat (w : Word) : (w &&& 0xF00F#16).toNat = w.toNat / 0x1000 * 0x1000 + w.toNat % 16 := by
  have hmask := mask_wordXyf (fieldOp w) (fieldX w) (fieldY w) (fieldN w)
  have hn : (fieldN w).toNat = w.toNat % 16 := by
    rw [fieldN, extract_n, BitVec.toNat_ofNat]
    omega
  rw [wordXyn_fields] at hmask
  rw [hmask, wordXyn_toNat, fieldOp_toNat, hn]
  simp

theorem and_mask_x_toNat (w : Word) : (w &&& 0xF0FF#16).toNat = w.toNat / 0x1000 * 0x1000 + w.toNat % 256 := by
  have hmask := mask_wordXff (fieldOp w) (fieldX w) (fieldKk w)
  have hkk : (fieldKk w).toNat = w.toNat % 256 := by
    rw [fieldKk, extract_kk, BitVec.toNat_ofNat]
    omega
  rw [wordXkk_fields] at hmask
  rw [hmask, wordXkk_toNat, fieldOp_toNat, hkk]
  simp

/-- Two words, as numbers, agree in the bits that a format's mask fixes. -/
def Format.FixedBitsAgree (f : Format) (v o : Nat) : Prop :=
  match f with
  | .none => v = o
  | .addr | .xkk | .xyn => v / 0x1000 = o / 0x1000
  | .xy => v / 0x1000 = o / 0x1000 ∧ v % 16 = o % 16
  | .x => v / 0x1000 = o / 0x1000 ∧ v % 256 = o % 256

theorem Format.and_mask_eq_iff (f : Format) {w o : Word} (ho : o &&& f.mask = o) :
    w &&& f.mask = o ↔ f.FixedBitsAgree w.toNat o.toNat := by
  rw [← BitVec.toNat_inj]
  replace ho := congrArg BitVec.toNat ho
  cases f with
  | none =>
    have hall : (w &&& Format.none.mask) = w := BitVec.and_allOnes
    rw [hall, FixedBitsAgree]
  | addr | xkk | xyn =>
    simp only [mask, and_mask_op_toNat, FixedBitsAgree] at ho ⊢
    omega
  | xy =>
    simp only [mask, and_mask_xy_toNat, FixedBitsAgree] at ho ⊢
    omega
  | x =>
    simp only [mask, and_mask_x_toNat, FixedBitsAgree] at ho ⊢
    omega

theorem catalog_opcode_and_mask : ∀ d ∈ catalog, d.opcode &&& d.mask = d.opcode := by decide

/-- The decoder fails exactly when the word agrees with no row in the bits that the row fixes. -/
theorem decode_eq_error_iff (w : Word) :
    decode w = .error (.unknownInstruction w) ↔
      ∀ d ∈ catalog, ¬d.form.format.FixedBitsAgree w.toNat d.opcode.toNat := by
  have hrow : ∀ d ∈ catalog, w &&& d.mask = d.opcode ↔ d.form.format.FixedBitsAgree w.toNat d.opcode.toNat :=
    fun d hd => d.form.format.and_mask_eq_iff (catalog_opcode_and_mask d hd)
  constructor
  · intro h d hd hagree
    rw [decode_eq_of_covers hd (Descriptor.covers_iff.2 ((hrow d hd).2 hagree))] at h
    cases h
  · exact fun h => decode_of_not_covered fun d hd hw => h d hd ((hrow d hd).1 hw)

/-- Settles O6: under each high nibble only that nibble's rows are left to compare, by the word's low nibble or low
byte. -/
theorem illegalWordsAreExactlyThese : Obligations.IllegalWordsAreExactlyThese := by
  intro w
  rw [decode_eq_error_iff]
  have hw := w.isLt
  generalize w.toNat = v at *
  simp only [catalog, catalogLow, catalogAlu, catalogHigh, catalogF, List.forall_mem_append, List.forall_mem_cons,
    List.not_mem_nil, false_imp_iff, implies_true, and_true, RowForm.format, Format.FixedBitsAgree]
  obtain ⟨op, hop⟩ : ∃ op, v / 0x1000 = op := ⟨_, rfl⟩
  have hlt : op < 16 := by omega
  rw [hop]
  interval_cases op <;> simp <;> omega

end Sys2Proof

namespace Sys2Proof.Machine

/-! ## The step at its edges: a latched fault, a fetch past memory, a jump to itself, a placed word -/

section StepEdges

variable {s : State}

/-- With PC inside memory, the word of a jump to PC is 0x1000 + PC (R140). -/
theorem encode_jump_to_pc (hpc : s.pc.toNat + 1 ≤ 0xFFF) : encode (.jump (s.pc.setWidth 12)) = 0x1000#16 + s.pc := by
  apply BitVec.eq_of_toNat_eq
  rw [encode, wordAddr_toNat, BitVec.toNat_setWidth, BitVec.toNat_add, BitVec.toNat_ofNat, BitVec.toNat_ofNat]
  omega

theorem targetOf_pc (hpc : s.pc.toNat + 1 ≤ 0xFFF) : targetOf (s.pc.setWidth 12) = s.pc := by
  apply BitVec.eq_of_toNat_eq
  rw [targetOf_toNat, BitVec.toNat_setWidth]
  omega

/-- The two bytes of a word placed at PC are fetched as that word (R35). -/
theorem fetch_withFetchWord (hm : Memory.wf s.mem) (hpc : s.pc.toNat + 1 ≤ 0xFFF) (nbits w : Nat) :
    fetch (s.withFetchWord nbits w) = some (tableWord nbits w) := by
  have hsame : (s.withFetchWord nbits w).pc = s.pc := rfl
  have hmem : (s.withFetchWord nbits w).mem =
    Memory.writeBytes s.mem s.pc.toNat [highByte (tableWord nbits w), lowByte (tableWord nbits w)] := rfl
  rw [fetch_eq, hsame, if_pos hpc, hmem, Memory.read_writeBytes _ _ _ hm.1, Memory.read_writeBytes _ _ _ hm.1]
  simp

theorem decode_of_decodeTableWord {nbits w : Nat} {i : Instr} (h : decodeTableWord nbits w = some i) :
    decode (tableWord nbits w) = .ok i := by
  simp only [decodeTableWord, decodeBytes, joinBytes_split] at h
  cases hdecode : decode (tableWord nbits w) with
  | error e => simp [hdecode] at h
  | ok j => simpa [hdecode] using h

end StepEdges

/-- Settles O9: the placed word is what is fetched, and the host reads the same instruction from it as the decoder. -/
theorem placedWordIsExecuted : Obligations.PlacedWordIsExecuted := fun _ nbits w _ hfault hpc hm hdecode =>
  step_of_decode hfault (fetch_withFetchWord hm hpc nbits w) (decode_of_decodeTableWord hdecode)

/-- Settles O10: with no word to fetch the step is the raise alone. -/
theorem fetchPastMemoryRaises : Obligations.FetchPastMemoryRaises := fun s hfault hpc =>
  ⟨_, step_of_fetch_none hfault (fetch_of_gt hpc), s.raise_fault _ _, s.raise_unchangedBut _ _⟩

/-- Settles O12: the latch is looked at before anything else. -/
theorem faultedStepIsRefused : Obligations.FaultedStepIsRefused := by
  intro s r hfault
  have hstep := step_of_fault hfault
  exact ⟨hstep, by rw [hostStep, hstep]⟩

/-- Settles O16: the word at PC is the jump to PC, which writes to PC what it holds. -/
theorem idleStepChangesNothing : Obligations.IdleStepChangesNothing := by
  rintro s ⟨hfault, hfetch⟩
  have hpc := pc_le_of_fetch hfetch
  rw [← encode_jump_to_pc hpc] at hfetch
  calc step s = exec (.jump (s.pc.setWidth 12)) s := step_of_decode hfault hfetch (decode_encode _)
    _ = .next (s.setPc (targetOf (s.pc.setWidth 12))) := rfl
    _ = .next s := by rw [targetOf_pc hpc]; rfl

/-! ## Memory in canonical form (log 9) -/

/-- Past a cell of a canonical memory, the address of that cell reads as unlisted. -/
theorem Memory.read_tail {c : Host.Cell} {m : Memory} (hm : Memory.wf (c :: m)) :
    Memory.read m c.1 = unlistedByte :=
  Memory.read_of_lt m c.1 (List.pairwise_cons.1 hm.1).1

theorem Memory.wf_tail {c : Host.Cell} {m : Memory} (hm : Memory.wf (c :: m)) : Memory.wf m :=
  ⟨(List.pairwise_cons.1 hm.1).2, fun d hd => hm.2 d (List.mem_cons_of_mem _ hd)⟩

theorem Memory.read_head (c : Host.Cell) (m : Memory) : Memory.read (c :: m) c.1 = c.2 := by
  rw [show c = (c.1, c.2) from rfl, Memory.read_consCell, if_pos rfl]

/-- A canonical memory's first cell is at the lowest address that does not read as unlisted. -/
theorem Memory.head_le_of_read {c : Host.Cell} {m : Memory} {a : Nat} (hm : Memory.wf (c :: m))
    (ha : Memory.read (c :: m) a ≠ unlistedByte) : c.1 ≤ a := by
  by_contra hlt
  refine ha (Memory.read_of_lt _ a fun d hd => ?_)
  obtain rfl | hd := List.mem_cons.1 hd
  · omega
  · exact Nat.lt_trans (by omega) ((List.pairwise_cons.1 hm.1).1 d hd)

theorem Memory.eq_of_read_eq {m k : Memory} (hm : Memory.wf m) (hk : Memory.wf k)
    (h : ∀ a, Memory.read m a = Memory.read k a) : m = k := by
  induction m generalizing k with
  | nil =>
    cases k with
    | nil => rfl
    | cons d k => exact absurd ((h d.1).trans (Memory.read_head d k)).symm (hk.2 d List.mem_cons_self).2
  | cons c m ih =>
    have hc : c.2 ≠ unlistedByte := (hm.2 c List.mem_cons_self).2
    cases k with
    | nil => exact absurd ((Memory.read_head c m).symm.trans (h c.1)) hc
    | cons d k =>
      have hd : d.2 ≠ unlistedByte := (hk.2 d List.mem_cons_self).2
      have hle : d.1 ≤ c.1 := Memory.head_le_of_read hk (by rwa [← h, Memory.read_head])
      have hge : c.1 ≤ d.1 := Memory.head_le_of_read hm (by rwa [h, Memory.read_head])
      have haddr : c.1 = d.1 := Nat.le_antisymm hge hle
      have hbyte : c.2 = d.2 := by rw [← Memory.read_head c m, h, haddr, Memory.read_head]
      obtain rfl : c = d := Prod.ext haddr hbyte
      refine congrArg (c :: ·) (ih (Memory.wf_tail hm) (Memory.wf_tail hk) fun a => ?_)
      have ha : (if a = c.1 then c.2 else Memory.read m a) = if a = c.1 then c.2 else Memory.read k a := h a
      by_cases hac : a = c.1
      · rw [hac, Memory.read_tail hm, Memory.read_tail hk]
      · rwa [if_neg hac, if_neg hac] at ha

/-- Settles O21: the first cells stand at the lowest address that reads as listed, so they agree, and so do the rest. -/
theorem equalReadsAreEqualMemories : Obligations.EqualReadsAreEqualMemories := fun _ _ => Memory.eq_of_read_eq

/-! ## Reset and ticks (R29, R115, R136) -/

/-- Settles O17: each field of the reset state is a literal. -/
theorem resetMeetsTheInvariants : Obligations.ResetMeetsTheInvariants :=
  ⟨State.reset_inv, latchTrue_of_fault_eq_none rfl, hostReset_sessionInv State.reset⟩

/-- Settles O22: whatever the state was, only the parameters and the draw count are taken from it. -/
theorem resetLeavesTheseValues : Obligations.ResetLeavesTheseValues := by
  intro s
  refine ⟨fun r => ?_, rfl, rfl, rfl, fun k => ?_, rfl, rfl, fun _ => rfl, fun px py => ?_, rfl, rfl, rfl⟩
  · simp [State.reg, State.hostReset, State.reset]
  · simp [State.hostReset, State.reset]
  · simp [State.pixel, State.hostReset, State.reset]

theorem tickDown_toNat (b : Byte) : (tickDown b).toNat = b.toNat - 1 := by
  unfold tickDown
  split
  case isTrue h => rw [h]; rfl
  case isFalse h => bv_omega

theorem State.tick_unchangedBut (s : State) : UnchangedBut [.dt, .st] s s.tick :=
  ((s.setDt_unchangedBut _).trans (State.setSt_unchangedBut _ _)).mono (by simp)

/-- Settles O25: one tick lowers each timer by one unless it is 0. -/
theorem ticksLowerTheTimers : Obligations.TicksLowerTheTimers := by
  intro n s
  induction n with
  | zero => exact ⟨rfl, rfl, (UnchangedBut.refl s).mono (by simp)⟩
  | succ n ih =>
    obtain ⟨hdt, hst, hframe⟩ := ih
    rw [Function.iterate_succ_apply']
    refine ⟨?_, ?_, (hframe.trans (State.tick_unchangedBut _)).mono (by simp)⟩
    · exact (tickDown_toNat _).trans (by rw [hdt]; omega)
    · exact (tickDown_toNat _).trans (by rw [hst]; omega)

/-! ## The five flag instructions (R83, R90 to R94) -/

section Flags

variable {s : State} {x : RegIdx}

theorem flagByte_toNat (c : Bool) : (flagByte c).toNat = c.toNat := by
  cases c <;> rfl

theorem State.aluResult_regsUnchangedBut (s : State) (x : RegIdx) (b : Byte) (c : Bool) :
    RegsUnchangedBut [x, regVF] s (s.aluResult x b c) := by
  intro r hr
  rw [List.mem_cons, List.mem_singleton, not_or] at hr
  rw [State.reg_aluResult, if_neg fun h => hr.2 h.1, if_neg hr.1]

theorem State.aluResult_regsUnchangedBut_of_not_aluSetsVf (b : Byte) (c : Bool) (h : s.params.aluSetsVf = false) :
    RegsUnchangedBut [x] s (s.aluResult x b c) := by
  intro r hr
  rw [State.reg_aluResult, if_neg (by simp [h]), if_neg (List.ne_of_not_mem_cons hr)]

/-- An instruction that writes a result and then a flag has the ALU effect of their numbers. -/
theorem aluResult_completes {i : Instr} {b : Byte} {c : Bool} {res flag : Nat}
    (h : exec i s = .next (s.aluResult x b c).advance) (hb : b.toNat = res) (hc : c.toNat = flag) :
    Completes i s (AluEffect x res flag s) := by
  subst hb hc
  refine ⟨_, h, fun hf => ⟨?_, fun hx => ?_, s.aluResult_regsUnchangedBut x b c⟩, fun hf => ⟨?_, ?_⟩, ?_, ?_⟩
  · show ((s.aluResult x b c).reg regVF).toNat = _
    rw [State.reg_aluResult, if_pos ⟨rfl, hf⟩, flagByte_toNat]
  · show ((s.aluResult x b c).reg x).toNat = _
    rw [State.reg_aluResult, if_neg fun h => hx h.1, if_pos rfl]
  · show ((s.aluResult x b c).reg x).toNat = _
    rw [State.reg_aluResult, if_neg (by simp [hf]), if_pos rfl]
  · exact State.aluResult_regsUnchangedBut_of_not_aluSetsVf b c hf
  · exact congrArg (· + 2#16) (State.aluFlag_pc _ _)
  · exact ((s.aluResult_unchangedBut x b c).setPc _).mono (by simp)

theorem carryOf_toNat (a b : Byte) : (carryOf a b).toNat = (a.toNat + b.toNat) / 256 := by
  have ha := a.isLt
  have hb := b.isLt
  unfold carryOf
  by_cases h : 255 < a.toNat + b.toNat
  · rw [decide_eq_true h, Bool.toNat_true]
    omega
  · rw [decide_eq_false h, Bool.toNat_false]
    omega

theorem sub_toNat (a b : Byte) : (a - b).toNat = (256 + a.toNat - b.toNat) % 256 := by
  have hb := b.isLt
  rw [BitVec.toNat_sub]
  omega

theorem notBorrowOf_toNat (a b : Byte) : (notBorrowOf a b).toNat = if b.toNat ≤ a.toNat then 1 else 0 :=
  Bool.cond_decide _ _ _

theorem lowBitOf_toNat (a : Byte) : (lowBitOf a).toNat = a.toNat % 2 := by
  rw [lowBitOf, BitVec.getLsbD, Nat.toNat_testBit]
  omega

theorem highBitOf_toNat (a : Byte) : (highBitOf a).toNat = a.toNat / 128 := by
  have ha := a.isLt
  rw [highBitOf, BitVec.getLsbD, Nat.toNat_testBit]
  omega

theorem shiftOperand_eq {y z : RegIdx} (hz : z = if s.params.shiftSource = .vx then x else y) :
    shiftOperand x y s = s.reg z := by
  unfold shiftOperand
  split <;> simp_all

end Flags

/-- Settles O38: the sum is taken modulo 256, and above 255 its 256s are the one carry. -/
theorem addGivesSumAndCarry : Obligations.AddGivesSumAndCarry := fun _ _ _ =>
  aluResult_completes rfl (BitVec.toNat_add _ _) (carryOf_toNat _ _)

/-- Settles O39: both are one subtraction, with the operands in either order. -/
theorem subtractGivesDifferenceAndNotBorrow : Obligations.SubtractGivesDifferenceAndNotBorrow := fun _ _ _ =>
  ⟨aluResult_completes rfl (sub_toNat _ _) (notBorrowOf_toNat _ _),
    aluResult_completes rfl (sub_toNat _ _) (notBorrowOf_toNat _ _)⟩

/-- Settles O40: a shift by one is a halving or a doubling, and the bit shifted out is the lowest or the highest. -/
theorem shiftsByOne : Obligations.ShiftsByOne := by
  intro s x y z hz
  have hshr : (shiftOperand x y s >>> 1).toNat = (s.reg z).toNat / 2 := by
    rw [shiftOperand_eq hz, BitVec.toNat_ushiftRight, Nat.shiftRight_one]
  have hshl : (shiftOperand x y s <<< 1).toNat = (s.reg z).toNat * 2 % 256 := by
    rw [shiftOperand_eq hz, BitVec.toNat_shiftLeft, Nat.shiftLeft_eq]
  exact ⟨aluResult_completes rfl hshr (by rw [lowBitOf_toNat, shiftOperand_eq hz]),
    aluResult_completes rfl hshl (by rw [highBitOf_toNat, shiftOperand_eq hz])⟩

/-! ## Instructions of one write: PC, I and ST (R77 to R79, R98, R99, R114) -/

/-- Settles O27: the target is the one write of PC, and a 12-bit address plus a byte fits its 16 bits. -/
theorem jumpOffsetAddsV0 : Obligations.JumpOffsetAddsV0 :=
  fun s nnn => ⟨_, rfl, offsetTarget_toNat nnn s, s.setPc_unchangedBut _⟩

/-- Settles O32: both are skips on the comparison of a register with the byte. -/
theorem immediateSkipsFollowTheirNames : Obligations.ImmediateSkipsFollowTheirNames := by
  intro s x kk
  have heq : (s.reg x == kk) = true ↔ (s.reg x).toNat = kk.toNat := beq_iff_eq.trans BitVec.toNat_inj.symm
  have hne : (s.reg x != kk) = true ↔ ¬(s.reg x).toNat = kk.toNat := bne_iff_ne.trans BitVec.toNat_inj.symm.not
  refine ⟨skip_completes rfl heq, ?_⟩
  simpa only [ite_not] using skip_completes (i := .skipNotEqual x kk) rfl hne

/-- Settles O43: the 16-bit sum is the one write of I. -/
theorem addIWrapsAtSixteenBits : Obligations.AddIWrapsAtSixteenBits := by
  intro s x
  refine setI_completes rfl ?_
  rw [BitVec.toNat_add, BitVec.toNat_setWidth]
  omega

/-- Settles O44: five times a byte fits 16 bits. -/
theorem loadSpriteIsFiveTimesVx : Obligations.LoadSpriteIsFiveTimesVx := by
  intro s x
  have hx := (s.reg x).isLt
  refine setI_completes rfl ?_
  rw [BitVec.toNat_ofNat, Config.glyphBytes]
  omega

/-- Settles O54: setting the timer is the one write of ST, from Vx. -/
theorem soundTimerTakesVx : Obligations.SoundTimerTakesVx := fun s x =>
  ⟨_, rfl, s.setSt_st (s.reg x), rfl, ((s.setSt_unchangedBut (s.reg x)).setPc _).mono (by simp)⟩

/-! ## Code that is stored over the next instruction (R43, R142) -/

/-- Settles O49: the first two bytes stored, V0 and V1, are at the PC of the next instruction. -/
theorem storedWordIsFetchedNext : Obligations.StoredWordIsFetchedNext := by
  intro s x hm hx hI hin
  obtain ⟨t, hexec, hread, -, hpc, -⟩ := storeMemory_completes x hm hin
  have htwo : (s.pc + 2#16).toNat = s.pc.toNat + 2 := pc_add_toNat (by omega) (by omega)
  have htpc : t.pc.toNat = s.iReg.toNat := by rw [hpc, htwo, hI]
  have hV0 : Memory.read t.mem s.iReg.toNat = s.reg 0 := hread 0 (Fin.zero_le x)
  have hV1 : Memory.read t.mem (s.iReg.toNat + 1) = s.reg 1 := hread 1 hx
  refine ⟨t, hexec, joinBytes (s.reg 0) (s.reg 1), ?_, joinBytes_toNat _ _⟩
  rw [fetch_eq, htpc, if_pos (by omega), hV0, hV1]

/-! ## Which registers an instruction can write (R18) -/

section RegisterTable

variable {s t : State}

theorem checkedAccess_regs {i : Instr} {n : Nat} {u : State} (h : checkedAccess i n s u = .next t) (r : RegIdx)
    (hu : u.reg r = s.reg r) : t.reg r = s.reg r := by
  obtain ⟨-, rfl⟩ | ⟨-, -, rfl⟩ := checkedAccess_next_cases h
  · exact hu
  · rfl

theorem State.aluResult_advance_regs (s : State) (x : RegIdx) (b : Byte) (c : Bool) :
    RegsUnchangedBut [x, regVF] s (s.aluResult x b c).advance ∧
      (s.params.aluSetsVf = false → RegsUnchangedBut [x] s (s.aluResult x b c).advance) :=
  ⟨s.aluResult_regsUnchangedBut x b c, State.aluResult_regsUnchangedBut_of_not_aluSetsVf b c⟩

end RegisterTable

/-- Settles O56: a register outside the row is outside the one write of Vx, the ALU's two writes, the write of VF or the
registers up to Vx; and no other instruction may write any. -/
theorem onlyTheTableWritesRegisters : Obligations.OnlyTheTableWritesRegisters := by
  intro i s t h
  cases i with
  | loadByteToVx x _ | addByteToVx x _ | setVxToVy x _ | orVxVy x _ | andVxVy x _ | xorVxVy x _ | readDelayTimer x =>
    exact Host.Outcome.next.inj h ▸ s.setReg_regsUnchangedBut x _
  | random x kk => exact Host.Outcome.next.inj h ▸ State.setReg_regsUnchangedBut (s.setDraws _) x _
  | addVxVy x _ | subVxVy x _ | subnVxVy x _ | shrVxVy x _ | shlVxVy x _ =>
    exact Host.Outcome.next.inj h ▸ s.aluResult_advance_regs x _ _
  | draw x y n =>
    exact fun r hr => checkedAccess_regs h r (State.setReg_regsUnchangedBut (s.setFb _) regVF _ r hr)
  | readMemory x =>
    intro r hr
    refine checkedAccess_regs h r ((getElem_loadRegs _ _ _ s.v r).trans (if_neg fun hmem => ?_))
    exact absurd ((mem_regsUpTo x r).1 hmem) (not_le.2 hr)
  | _ => exact exec_changesOnly _ s t h .regs (by simp [mayWrite])

/-! ## No instruction reads ST (R24) -/

/-- An outcome with ST replaced in the next state. -/
def outcomeSetSt (b : Byte) : Host.Outcome State Fault Refusal → Host.Outcome State Fault Refusal
  | .next t => .next (t.setSt b)
  | o => o

section SoundTimer

theorem State.setSt_aluResult (s : State) (x : RegIdx) (r : Byte) (c : Bool) (b : Byte) :
    (s.setSt b).aluResult x r c = (s.aluResult x r c).setSt b := by
  unfold State.aluResult State.aluFlag
  by_cases h : s.params.aluSetsVf = true
  · simp only [State.setReg_params, State.setSt_params, h, if_true]
    rfl
  · simp only [State.setReg_params, State.setSt_params, h]
    rfl

theorem checkedAccess_setSt {i : Instr} {n : Nat} {s u u' : State} {b : Byte} (hu : u' = u.setSt b) :
    checkedAccess i n (s.setSt b) u' = outcomeSetSt b (checkedAccess i n s u) := by
  subst hu
  have hsame : (s.setSt b).iReg = s.iReg := rfl
  obtain ⟨hin, hc⟩ | ⟨hn, hgt, hr⟩ := checkedAccess_cases i n s u
  · rw [hc, checkedAccess_of_le (by rwa [hsame])]
    rfl
  · rw [hr, checkedAccess_of_gt hn (by rwa [hsame])]
    rfl

theorem exec_setSt (i : Instr) (hi : i.name ≠ "set_sound_timer") (s : State) (b : Byte) :
    exec i (s.setSt b) = outcomeSetSt b (exec i s) := by
  cases i with
  | setSoundTimer x => exact absurd rfl hi
  | ret =>
    show execRet _ = outcomeSetSt b (execRet s)
    by_cases hd : 0 < s.depth.val
    · rw [execRet_of_pos hd, execRet_of_pos (s := s.setSt b) hd]
      rfl
    · rw [execRet_of_empty hd, execRet_of_empty (s := s.setSt b) hd]
      rfl
  | call nnn =>
    show execCall nnn _ = outcomeSetSt b (execCall nnn s)
    by_cases hd : s.depth.val < 16
    · rw [execCall_of_lt nnn hd, execCall_of_lt (s := s.setSt b) nnn hd]
      rfl
    · rw [execCall_of_full nnn hd, execCall_of_full (s := s.setSt b) nnn hd]
      rfl
  | draw x y n | loadBcd x | storeMemory x | readMemory x => exact checkedAccess_setSt rfl
  | addVxVy x y | subVxVy x y | shrVxVy x y | subnVxVy x y | shlVxVy x y =>
    exact congrArg (fun u => commit (State.advance u)) (s.setSt_aluResult x _ _ b)
  | _ => rfl

theorem name_eq_set_sound_timer_iff {i : Instr} : i.name = "set_sound_timer" ↔ ∃ x, i = .setSoundTimer x := by
  cases i <;> simp [Instr.name]

end SoundTimer

/-- Settles O59: every instruction but `set_sound_timer` commutes with a change of ST, and that one overwrites it. -/
theorem noInstructionReadsSt : Obligations.NoInstructionReadsSt := by
  intro i s t b h
  split
  case isTrue hi =>
    obtain ⟨x, rfl⟩ := name_eq_set_sound_timer_iff.1 hi
    exact h
  case isFalse hi => rw [exec_setSt i hi, h, outcomeSetSt]

end Sys2Proof.Machine
